-- ==== Sys2Proof/Word.lean ====
section
/-! DEFINITION. The plain data of the Doodlestick core: colours, points, axes and the two decoded words.

Rules: R9 (notation), R41 (a colour is three single bits), R43 (coordinates, the sentinel), R60, R61, R65 (formats). -/

namespace Sys2Proof

/-- R41: "triple of single-bit intensities (red, green, blue). Equality is component-wise." -/
structure Color where
  r : Bool
  g : Bool
  b : Bool
deriving DecidableEq, Repr

/-- The colour (0,0,0): a cleared half of the colour bus (R30) and `FB_INIT` (R6). -/
def Color.black : Color := ⟨false, false, false⟩

/-- R9, D41: a point is a signed pair of mathematical integers; R11's width (`COORD_BITS`) is the range that
`Config.coordMax` and the machine's invariant state. -/
structure Point where
  x : Int
  y : Int
deriving DecidableEq, Repr

/-- R9, R43: the sentinel `UNSET = (-1, -1)`, never a valid buffer index. -/
def Point.unset : Point := ⟨-1, -1⟩

/-- R9: the axis index `a` in `{X, Y}`. -/
inductive Axis where
  | x
  | y
deriving DecidableEq, Repr

/-- R9: a register array indexed by the axis (`fresh[a]`, `sample[a]`, `joy[a]`, `conv[a]`). -/
structure PerAxis (α : Type) where
  x : α
  y : α
deriving DecidableEq, Repr

/-- `p[a]`. -/
def PerAxis.get {α : Type} (p : PerAxis α) : Axis → α
  | .x => p.x
  | .y => p.y

/-- `p[a] <- v`. -/
def PerAxis.set {α : Type} (p : PerAxis α) (a : Axis) (v : α) : PerAxis α :=
  match a with
  | .x => ⟨v, p.y⟩
  | .y => ⟨p.x, v⟩

/-- R61: format K5, `pressed ‖ v`. -/
abbrev KeyWord := BitVec 5

/-- R65: format M6, `mode ‖ sel`. -/
abbrev ModeWord := BitVec 6

/-- R60: the two decoded formats. -/
inductive Format where
  | k5
  | m6
deriving DecidableEq, Repr

/-- A word of one of the two decoded formats. -/
inductive CodeWord where
  | k5 (w : KeyWord)
  | m6 (w : ModeWord)
deriving DecidableEq, Repr

end Sys2Proof
end

