-- ==== Sys2Proof/Syntax.lean ====
section
/-! DEFINITION. The instructions: one constructor for each row of spec/opcode_table.json, in the table's order.

K5 rows are the key instructions of phase P3 (R62, R64, R68), M6 rows the mode operations of phase P4 (R66, R69). -/

namespace Sys2Proof

/-- The 14 key instructions (format K5) and the 64 mode operations (format M6). Only the two rows whose encoding leaves
bits open carry an operand, the nibble `v` of the key word: no meaning reads it (R61, R117). -/
inductive Instr where
  /-- NOKEY: K5 `0xxxx` (R111). -/
  | nokey (v : BitVec 4)
  /-- SEL1: K5 `10001` (R116). -/
  | sel1
  /-- SEL2: K5 `10010` (R116). -/
  | sel2
  /-- SEL3: K5 `10011` (R116). -/
  | sel3
  /-- SEL4: K5 `10100` (R116). -/
  | sel4
  /-- SEL5: K5 `10101` (R116). -/
  | sel5
  /-- SEL6: K5 `10110` (R116). -/
  | sel6
  /-- SEL7: K5 `10111` (R116). -/
  | sel7
  /-- SEL8: K5 `11000` (R116). -/
  | sel8
  /-- MODE_SPEED: K5 `11001` (R115). -/
  | modeSpeed
  /-- MODE_COLOR: K5 `11010` (R112). -/
  | modeColor
  /-- MODE_FILL: K5 `10000` (R113). -/
  | modeFill
  /-- MODE_DRAW: K5 `11011` (R114). -/
  | modeDraw
  /-- K5_RESERVED: K5 `111xx` (R117). -/
  | k5Reserved (v : BitVec 4)
  /-- COLOR_UNREACHABLE_0: M6 `000000` (R132). -/
  | colorUnreachable0
  /-- COLOR_SET1: M6 `000001` (R131). -/
  | colorSet1
  /-- COLOR_SET2: M6 `000010` (R131). -/
  | colorSet2
  /-- COLOR_SET3: M6 `000011` (R131). -/
  | colorSet3
  /-- COLOR_SET4: M6 `000100` (R131). -/
  | colorSet4
  /-- COLOR_SET5: M6 `000101` (R131). -/
  | colorSet5
  /-- COLOR_SET6: M6 `000110` (R131). -/
  | colorSet6
  /-- COLOR_SET7: M6 `000111` (R131). -/
  | colorSet7
  /-- COLOR_SET8: M6 `001000` (R131). -/
  | colorSet8
  /-- COLOR_UNREACHABLE_9: M6 `001001` (R132). -/
  | colorUnreachable9
  /-- COLOR_UNREACHABLE_A: M6 `001010` (R132). -/
  | colorUnreachableA
  /-- COLOR_UNREACHABLE_B: M6 `001011` (R132). -/
  | colorUnreachableB
  /-- COLOR_UNREACHABLE_C: M6 `001100` (R132). -/
  | colorUnreachableC
  /-- COLOR_UNREACHABLE_D: M6 `001101` (R132). -/
  | colorUnreachableD
  /-- COLOR_UNREACHABLE_E: M6 `001110` (R132). -/
  | colorUnreachableE
  /-- COLOR_NONE: M6 `001111` (R132). -/
  | colorNone
  /-- FILL_UNREACHABLE_0: M6 `010000` (R134). -/
  | fillUnreachable0
  /-- FILL_DO1: M6 `010001` (R133). -/
  | fillDo1
  /-- FILL_DO2: M6 `010010` (R133). -/
  | fillDo2
  /-- FILL_DO3: M6 `010011` (R133). -/
  | fillDo3
  /-- FILL_DO4: M6 `010100` (R133). -/
  | fillDo4
  /-- FILL_DO5: M6 `010101` (R133). -/
  | fillDo5
  /-- FILL_DO6: M6 `010110` (R133). -/
  | fillDo6
  /-- FILL_DO7: M6 `010111` (R133). -/
  | fillDo7
  /-- FILL_DO8: M6 `011000` (R133). -/
  | fillDo8
  /-- FILL_UNREACHABLE_9: M6 `011001` (R134). -/
  | fillUnreachable9
  /-- FILL_UNREACHABLE_A: M6 `011010` (R134). -/
  | fillUnreachableA
  /-- FILL_UNREACHABLE_B: M6 `011011` (R134). -/
  | fillUnreachableB
  /-- FILL_UNREACHABLE_C: M6 `011100` (R134). -/
  | fillUnreachableC
  /-- FILL_UNREACHABLE_D: M6 `011101` (R134). -/
  | fillUnreachableD
  /-- FILL_UNREACHABLE_E: M6 `011110` (R134). -/
  | fillUnreachableE
  /-- FILL_NONE: M6 `011111` (R134). -/
  | fillNone
  /-- DRAW_UNREACHABLE_0: M6 `100000` (R137). -/
  | drawUnreachable0
  /-- DRAW_FREE: M6 `100001` (R138). -/
  | drawFree
  /-- DRAW_TRACE: M6 `100010` (R139). -/
  | drawTrace
  /-- DRAW_LINE: M6 `100011` (R140). -/
  | drawLine
  /-- DRAW_RECT: M6 `100100` (R141). -/
  | drawRect
  /-- DRAW_TRI: M6 `100101` (R142). -/
  | drawTri
  /-- DRAW_PAT6: M6 `100110` (R144). -/
  | drawPat6
  /-- DRAW_PAT7: M6 `100111` (R149). -/
  | drawPat7
  /-- DRAW_FILL: M6 `101000` (R143). -/
  | drawFill
  /-- DRAW_UNREACHABLE_9: M6 `101001` (R137). -/
  | drawUnreachable9
  /-- DRAW_UNREACHABLE_A: M6 `101010` (R137). -/
  | drawUnreachableA
  /-- DRAW_UNREACHABLE_B: M6 `101011` (R137). -/
  | drawUnreachableB
  /-- DRAW_UNREACHABLE_C: M6 `101100` (R137). -/
  | drawUnreachableC
  /-- DRAW_UNREACHABLE_D: M6 `101101` (R137). -/
  | drawUnreachableD
  /-- DRAW_UNREACHABLE_E: M6 `101110` (R137). -/
  | drawUnreachableE
  /-- DRAW_NONE: M6 `101111` (R137). -/
  | drawNone
  /-- SPEED_UNREACHABLE_0: M6 `110000` (R136). -/
  | speedUnreachable0
  /-- SPEED_SET1: M6 `110001` (R135). -/
  | speedSet1
  /-- SPEED_SET2: M6 `110010` (R135). -/
  | speedSet2
  /-- SPEED_SET3: M6 `110011` (R135). -/
  | speedSet3
  /-- SPEED_SET4: M6 `110100` (R135). -/
  | speedSet4
  /-- SPEED_SET5: M6 `110101` (R135). -/
  | speedSet5
  /-- SPEED_SET6: M6 `110110` (R135). -/
  | speedSet6
  /-- SPEED_SET7: M6 `110111` (R135). -/
  | speedSet7
  /-- SPEED_SET8: M6 `111000` (R135). -/
  | speedSet8
  /-- SPEED_UNREACHABLE_9: M6 `111001` (R136). -/
  | speedUnreachable9
  /-- SPEED_UNREACHABLE_A: M6 `111010` (R136). -/
  | speedUnreachableA
  /-- SPEED_UNREACHABLE_B: M6 `111011` (R136). -/
  | speedUnreachableB
  /-- SPEED_UNREACHABLE_C: M6 `111100` (R136). -/
  | speedUnreachableC
  /-- SPEED_UNREACHABLE_D: M6 `111101` (R136). -/
  | speedUnreachableD
  /-- SPEED_UNREACHABLE_E: M6 `111110` (R136). -/
  | speedUnreachableE
  /-- SPEED_NONE: M6 `111111` (R136). -/
  | speedNone
deriving DecidableEq, Repr

end Sys2Proof
end

