-- ==== Sys2Proof/WellFormed.lean ====
section
/-! DEFINITION. Which instructions stand for a word of the spec's encodings. -/

namespace Sys2Proof

/-- R68: a reserved key word holds a nibble in `0xC .. 0xF`. R61, R64: `NOKEY` holds any nibble. The other
instructions have no operand. -/
def Instr.wf : Instr → Bool
  | .k5Reserved v => decide (0xC#4 ≤ v)
  | _ => true

end Sys2Proof
end

