-- ==== Sys2Proof/Decode.lean ====
section
/-! DEFINITION. Decoding the two words and encoding the instructions (R60 to R69), and the opcode table's numbering.

Decoding is total: every 5-bit key word and every 6-bit mode word has a meaning (R64, R68, R69). A number that does not fit
the format's width is rejected by name. -/

namespace Sys2Proof

/-- R61: bit 4, `pressed`. -/
def KeyWord.pressed (w : KeyWord) : Bool := w.getLsbD 4

/-- R61: bits 3:0, `v`. -/
def KeyWord.v (w : KeyWord) : BitVec 4 := w.extractLsb' 0 4

/-- R65: bits 5:4, `mode`. -/
def ModeWord.modeBits (w : ModeWord) : BitVec 2 := w.extractLsb' 4 2

/-- R65: bits 3:0, `sel`. -/
def ModeWord.selBits (w : ModeWord) : BitVec 4 := w.extractLsb' 0 4

/-- R61: the key word `pressed ‖ v`. -/
def makeKeyWord (pressed : Bool) (v : BitVec 4) : KeyWord := BitVec.ofBool pressed ++ v

/-- R65: the mode word `mode ‖ sel`. -/
def makeModeWord (mode : BitVec 2) (sel : BitVec 4) : ModeWord := mode ++ sel

/-- R64 with `pressed = 1`: "The four mode keys are tested first", then the selections; R68 for the rest. -/
def decodePressed (v : BitVec 4) : Instr :=
  match v with
  | 0xA#4 => .modeColor
  | 0x0#4 => .modeFill
  | 0xB#4 => .modeDraw
  | 0x9#4 => .modeSpeed
  | 0x1#4 => .sel1
  | 0x2#4 => .sel2
  | 0x3#4 => .sel3
  | 0x4#4 => .sel4
  | 0x5#4 => .sel5
  | 0x6#4 => .sel6
  | 0x7#4 => .sel7
  | 0x8#4 => .sel8
  | _ => .k5Reserved v

/-- R64, R68: the decoder of format K5. With `pressed = 0` the word is `NOKEY` whatever `v` holds. -/
def decodeKeyWord (w : KeyWord) : Instr := if w.pressed then decodePressed w.v else .nokey w.v

/-- R66, R69 for `mode = Color` (R131, R132). -/
def decodeColorSel (sel : BitVec 4) : Instr :=
  match sel with
  | 0x0#4 => .colorUnreachable0
  | 0x1#4 => .colorSet1
  | 0x2#4 => .colorSet2
  | 0x3#4 => .colorSet3
  | 0x4#4 => .colorSet4
  | 0x5#4 => .colorSet5
  | 0x6#4 => .colorSet6
  | 0x7#4 => .colorSet7
  | 0x8#4 => .colorSet8
  | 0x9#4 => .colorUnreachable9
  | 0xA#4 => .colorUnreachableA
  | 0xB#4 => .colorUnreachableB
  | 0xC#4 => .colorUnreachableC
  | 0xD#4 => .colorUnreachableD
  | 0xE#4 => .colorUnreachableE
  | _ => .colorNone

/-- R66, R69 for `mode = Fill` (R133, R134). -/
def decodeFillSel (sel : BitVec 4) : Instr :=
  match sel with
  | 0x0#4 => .fillUnreachable0
  | 0x1#4 => .fillDo1
  | 0x2#4 => .fillDo2
  | 0x3#4 => .fillDo3
  | 0x4#4 => .fillDo4
  | 0x5#4 => .fillDo5
  | 0x6#4 => .fillDo6
  | 0x7#4 => .fillDo7
  | 0x8#4 => .fillDo8
  | 0x9#4 => .fillUnreachable9
  | 0xA#4 => .fillUnreachableA
  | 0xB#4 => .fillUnreachableB
  | 0xC#4 => .fillUnreachableC
  | 0xD#4 => .fillUnreachableD
  | 0xE#4 => .fillUnreachableE
  | _ => .fillNone

/-- R66, R69 for `mode = Draw` (R137 to R144, R149). -/
def decodeDrawSel (sel : BitVec 4) : Instr :=
  match sel with
  | 0x0#4 => .drawUnreachable0
  | 0x1#4 => .drawFree
  | 0x2#4 => .drawTrace
  | 0x3#4 => .drawLine
  | 0x4#4 => .drawRect
  | 0x5#4 => .drawTri
  | 0x6#4 => .drawPat6
  | 0x7#4 => .drawPat7
  | 0x8#4 => .drawFill
  | 0x9#4 => .drawUnreachable9
  | 0xA#4 => .drawUnreachableA
  | 0xB#4 => .drawUnreachableB
  | 0xC#4 => .drawUnreachableC
  | 0xD#4 => .drawUnreachableD
  | 0xE#4 => .drawUnreachableE
  | _ => .drawNone

/-- R66, R69 for `mode = Speed` (R135, R136). -/
def decodeSpeedSel (sel : BitVec 4) : Instr :=
  match sel with
  | 0x0#4 => .speedUnreachable0
  | 0x1#4 => .speedSet1
  | 0x2#4 => .speedSet2
  | 0x3#4 => .speedSet3
  | 0x4#4 => .speedSet4
  | 0x5#4 => .speedSet5
  | 0x6#4 => .speedSet6
  | 0x7#4 => .speedSet7
  | 0x8#4 => .speedSet8
  | 0x9#4 => .speedUnreachable9
  | 0xA#4 => .speedUnreachableA
  | 0xB#4 => .speedUnreachableB
  | 0xC#4 => .speedUnreachableC
  | 0xD#4 => .speedUnreachableD
  | 0xE#4 => .speedUnreachableE
  | _ => .speedNone

/-- R66, R69: the decoder of format M6. -/
def decodeModeWord (w : ModeWord) : Instr :=
  match w.modeBits with
  | 0b00#2 => decodeColorSel w.selBits
  | 0b01#2 => decodeFillSel w.selBits
  | 0b10#2 => decodeDrawSel w.selBits
  | _ => decodeSpeedSel w.selBits

/-- R60: the decoder of a word of either format. -/
def decode : CodeWord → Instr
  | .k5 w => decodeKeyWord w
  | .m6 w => decodeModeWord w

/-- Why a number is no word of a format. -/
inductive DecodeReject where
  /-- the number has a bit above bit 4 (R61: the key word has 5 bits); safe: nothing is decoded. -/
  | keyWordTooWide
  /-- the number has a bit above bit 5 (R65: the mode word has 6 bits); safe: nothing is decoded. -/
  | modeWordTooWide
deriving DecidableEq, Repr

/-- The word of a format that a number stands for, bit 0 the least significant (R9). -/
def codeWordOf (f : Format) (n : Nat) : Except DecodeReject CodeWord :=
  match f with
  | .k5 => if n < 32 then .ok (.k5 (BitVec.ofNat 5 n)) else .error .keyWordTooWide
  | .m6 => if n < 64 then .ok (.m6 (BitVec.ofNat 6 n)) else .error .modeWordTooWide

/-- Decoding a number as a word of a format: total, a number too wide for the format is rejected by name. -/
def decodeNumber (f : Format) (n : Nat) : Except DecodeReject Instr := (codeWordOf f n).map decode

/-- Which format the opcode table's numbering means. The table's rows have 5 bits (K5) or 6 bits (M6). A count of whole
bytes, 8, does not tell them apart: DESIGN CHOICE (assumption log 7), the number is read as a key word when it is one the
scanner produces (`0x00`, R61, or `0x10 .. 0x1B`, R62), and as a mode word otherwise. -/
def tableFormat (nbits w : Nat) : Format :=
  if nbits = 5 then .k5
  else if nbits = 6 then .m6
  else if w = 0x00 ∨ (0x10 ≤ w ∧ w ≤ 0x1B) then .k5 else .m6

/-- The word the opcode table's number stands for. -/
def tableCodeWord (nbits w : Nat) : Option CodeWord := (codeWordOf (tableFormat nbits w) w).toOption

/-- The instruction the decoder reads from the bits `w` of an opcode-table row. -/
def decodeTableWord (nbits w : Nat) : Option Instr := (tableCodeWord nbits w).map decode

/-- The encoder, from the tables of R62, R66, R68 and R69. -/
def encode : Instr → CodeWord
  | .nokey v => .k5 (makeKeyWord false v)
  | .sel1 => .k5 0b10001#5
  | .sel2 => .k5 0b10010#5
  | .sel3 => .k5 0b10011#5
  | .sel4 => .k5 0b10100#5
  | .sel5 => .k5 0b10101#5
  | .sel6 => .k5 0b10110#5
  | .sel7 => .k5 0b10111#5
  | .sel8 => .k5 0b11000#5
  | .modeSpeed => .k5 0b11001#5
  | .modeColor => .k5 0b11010#5
  | .modeFill => .k5 0b10000#5
  | .modeDraw => .k5 0b11011#5
  | .k5Reserved v => .k5 (makeKeyWord true v)
  | .colorUnreachable0 => .m6 0b000000#6
  | .colorSet1 => .m6 0b000001#6
  | .colorSet2 => .m6 0b000010#6
  | .colorSet3 => .m6 0b000011#6
  | .colorSet4 => .m6 0b000100#6
  | .colorSet5 => .m6 0b000101#6
  | .colorSet6 => .m6 0b000110#6
  | .colorSet7 => .m6 0b000111#6
  | .colorSet8 => .m6 0b001000#6
  | .colorUnreachable9 => .m6 0b001001#6
  | .colorUnreachableA => .m6 0b001010#6
  | .colorUnreachableB => .m6 0b001011#6
  | .colorUnreachableC => .m6 0b001100#6
  | .colorUnreachableD => .m6 0b001101#6
  | .colorUnreachableE => .m6 0b001110#6
  | .colorNone => .m6 0b001111#6
  | .fillUnreachable0 => .m6 0b010000#6
  | .fillDo1 => .m6 0b010001#6
  | .fillDo2 => .m6 0b010010#6
  | .fillDo3 => .m6 0b010011#6
  | .fillDo4 => .m6 0b010100#6
  | .fillDo5 => .m6 0b010101#6
  | .fillDo6 => .m6 0b010110#6
  | .fillDo7 => .m6 0b010111#6
  | .fillDo8 => .m6 0b011000#6
  | .fillUnreachable9 => .m6 0b011001#6
  | .fillUnreachableA => .m6 0b011010#6
  | .fillUnreachableB => .m6 0b011011#6
  | .fillUnreachableC => .m6 0b011100#6
  | .fillUnreachableD => .m6 0b011101#6
  | .fillUnreachableE => .m6 0b011110#6
  | .fillNone => .m6 0b011111#6
  | .drawUnreachable0 => .m6 0b100000#6
  | .drawFree => .m6 0b100001#6
  | .drawTrace => .m6 0b100010#6
  | .drawLine => .m6 0b100011#6
  | .drawRect => .m6 0b100100#6
  | .drawTri => .m6 0b100101#6
  | .drawPat6 => .m6 0b100110#6
  | .drawPat7 => .m6 0b100111#6
  | .drawFill => .m6 0b101000#6
  | .drawUnreachable9 => .m6 0b101001#6
  | .drawUnreachableA => .m6 0b101010#6
  | .drawUnreachableB => .m6 0b101011#6
  | .drawUnreachableC => .m6 0b101100#6
  | .drawUnreachableD => .m6 0b101101#6
  | .drawUnreachableE => .m6 0b101110#6
  | .drawNone => .m6 0b101111#6
  | .speedUnreachable0 => .m6 0b110000#6
  | .speedSet1 => .m6 0b110001#6
  | .speedSet2 => .m6 0b110010#6
  | .speedSet3 => .m6 0b110011#6
  | .speedSet4 => .m6 0b110100#6
  | .speedSet5 => .m6 0b110101#6
  | .speedSet6 => .m6 0b110110#6
  | .speedSet7 => .m6 0b110111#6
  | .speedSet8 => .m6 0b111000#6
  | .speedUnreachable9 => .m6 0b111001#6
  | .speedUnreachableA => .m6 0b111010#6
  | .speedUnreachableB => .m6 0b111011#6
  | .speedUnreachableC => .m6 0b111100#6
  | .speedUnreachableD => .m6 0b111101#6
  | .speedUnreachableE => .m6 0b111110#6
  | .speedNone => .m6 0b111111#6

end Sys2Proof
end

