-- ==== Sys2Proof/Config.lean ====
section
/-! DEFINITION. What an implementation fixes: the parameters of R6, as plain data that carries its own constraints
(R6, D2, D9, D23; U7 and U8 of 93_implementation_defined.md), and the one free value (U3). -/

namespace Sys2Proof

/-- D4: the greatest coordinate that `COORD_BITS = 8` signed bits hold (2^7 - 1); D2: "so `W, H <= 127`". -/
def coordMax : Nat := 127

/-- R6, D22, D6: a colour for every cell of the buffer, `PATTERN6`, `PATTERN7` or `FB_INIT`, as plain data.
`checker odd c` is the checkerboard of R8: `c` where `(x + y) mod 2` is 1 (`odd`) or 0 (not `odd`), black elsewhere.
`table cells` gives every cell in the order of R43's linear cell number; a cell past its end is black. So every function
from the cells of a geometry to colours is some `table`. -/
inductive Pattern where
  | checker (odd : Bool) (c : Color)
  | table (cells : List Color)
deriving DecidableEq, Repr

/-- R8, R47: the colour of a pattern at column `x`, row `y` of a buffer `width` columns wide. -/
def Pattern.colorAt (width : Nat) (pat : Pattern) (x y : Nat) : Color :=
  match pat with
  | .checker odd c => if (x + y) % 2 = (if odd then 1 else 0) then c else Color.black
  | .table cells => cells.getD (y * width + x) Color.black

/-- R210, D30: the two values of the switch `ADDR_AFTER`: the next pair (the literal reading) or the pair just latched. -/
inductive AddrAfter where
  | next
  | same
deriving DecidableEq, Repr

/-- R6: the parameters of the hardware. The proof fields are the constraints the spec puts on them, so a `Config` that
breaks one cannot be built (U8: "the model's geometry type carries the constraint"). -/
structure Config where
  /-- `W`. -/
  width : Nat
  /-- `NPAIRS`; `H = 2 * NPAIRS`, so `H` is even (D2). -/
  npairs : Nat
  /-- `PALETTE[0..7]` (R33, OPEN). -/
  palette : Vector Color 8
  /-- `DEFAULT_COLOR_INDEX` (OPEN). -/
  defaultColorIndex : Fin 8
  /-- `HIGHLIGHT` (OPEN). -/
  highlight : Color
  /-- `NEUTRAL_X`. -/
  neutralX : Nat
  /-- `NEUTRAL_Y`. -/
  neutralY : Nat
  /-- `THRESHOLD`. -/
  threshold : Nat
  /-- `SAMPLE_BITS` (OPEN). -/
  sampleBits : Nat
  /-- `BLINK_THRESHOLD`. -/
  blinkThreshold : Nat
  /-- `SPEED_DIV(s)` at index `s - 1` (OPEN). -/
  speedDiv : Vector Nat 8
  /-- `DIV_RESET` (OPEN). -/
  divReset : Nat
  /-- `PATTERN6` (OPEN). -/
  pattern6 : Pattern
  /-- `PATTERN7` (OPEN). -/
  pattern7 : Pattern
  /-- `FB_INIT` (D6: "A model may take `FB_INIT` as a parameter"). -/
  fbInit : Pattern
  /-- `OE_AFTER_LATCH` (switch, R209). -/
  oeAfterLatch : Bool
  /-- `ADDR_AFTER` (switch, R210). -/
  addrAfter : AddrAfter
  width_pos : 1 ≤ width
  width_le : width ≤ coordMax
  npairs_pos : 1 ≤ npairs
  npairs_le : 2 * npairs ≤ coordMax
  neutralX_low : threshold ≤ neutralX
  neutralY_low : threshold ≤ neutralY
  neutralX_high : neutralX + threshold < 2 ^ sampleBits
  neutralY_high : neutralY + threshold < 2 ^ sampleBits
  blink_pos : 1 ≤ blinkThreshold
  speedDiv_range : ∀ i : Fin 8, 1 ≤ speedDiv[i] ∧ speedDiv[i] ≤ 8
  speedDiv_mono : ∀ i j : Fin 8, i ≤ j → speedDiv[i] ≤ speedDiv[j]
  divReset_range : 1 ≤ divReset ∧ divReset ≤ 8
deriving DecidableEq, Repr

/-- `H`. -/
def Config.height (cfg : Config) : Nat := 2 * cfg.npairs

/-- `ADDR_BITS = max(1, ceil(log2(NPAIRS)))` (R6, D5). -/
def Config.addrBits (cfg : Config) : Nat := max 1 (if cfg.npairs ≤ 1 then 0 else Nat.log2 (cfg.npairs - 1) + 1)

/-- What a cell that the memory does not list reads as: black, R6's reference value of `FB_INIT` (assumption log 5). -/
def Config.unlisted : Color := Color.black

/-- R6: the reference map `SPEED_DIV(s) = s`. -/
def Config.exampleDivisors : Vector Nat 8 := #v[1, 2, 3, 4, 5, 6, 7, 8]

/-- R7: the example palette `PAL_EX`. -/
def Config.examplePalette : Vector Color 8 :=
  #v[⟨true, false, false⟩, ⟨false, true, false⟩, ⟨false, false, true⟩, ⟨true, true, false⟩,
     ⟨false, true, true⟩, ⟨true, false, true⟩, ⟨true, true, true⟩, ⟨false, false, false⟩]

/-- R6's "reference" column: the values the test vectors of 95_test_vectors.md use (R7, R8 for palette and patterns). -/
def Config.reference : Config where
  width := 32
  npairs := 8
  palette := Config.examplePalette
  defaultColorIndex := 0
  highlight := ⟨true, true, true⟩
  neutralX := 2050
  neutralY := 1950
  threshold := 900
  sampleBits := 12
  blinkThreshold := 5
  speedDiv := Config.exampleDivisors
  divReset := 1
  pattern6 := .checker false ⟨true, false, false⟩
  pattern7 := .checker true ⟨false, true, false⟩
  fbInit := .table []
  oeAfterLatch := false
  addrAfter := .next
  width_pos := by decide
  width_le := by decide
  npairs_pos := by decide
  npairs_le := by decide
  neutralX_low := by decide
  neutralY_low := by decide
  neutralX_high := by decide
  neutralY_high := by decide
  blink_pos := by decide
  speedDiv_range := by decide
  speedDiv_mono := by decide
  divReset_range := by decide

/-- U3, R25: what the sample cells hold before the first completion. The spec leaves it unspecified and says that a model
"must not pick 0 or `NEUTRAL` and prove things from it": a constant without a body, so that nothing can be proved of its
value. Assumption log 3. -/
opaque Config.sampleAtReset : Axis → Nat

end Sys2Proof
end

