-- ==== Sys2Proof/Machine/State.lean ====
section
/-! DEFINITION. The state of the Doodlestick core as plain data, its outcomes' reasons, and the state after reset
(10_state.md). -/

namespace Sys2Proof.Machine

/-- R16: the four modes; the numbers of their two bits are in `Mode.bits`. -/
inductive Mode where
  | color
  | fill
  | draw
  | speed
deriving DecidableEq, Repr

/-- R17: `NONE = -1`, stored as `0b1111`. -/
def selNone : BitVec 4 := 0xF#4

/-- R24, R80: the six phases. -/
inductive Phase where
  | p1
  | p2
  | p3
  | p4
  | p5
  | p6
deriving DecidableEq, Repr

/-- R94: the position inside the body of P1 for one axis. -/
inductive DrainPos where
  | test
  | clear
  | read
  | start
deriving DecidableEq, Repr

/-- R100: the position inside the sweep of one column. -/
inductive ScanPos where
  | drive
  | sense
  | rows
  | release
deriving DecidableEq, Repr

/-- R86: the position inside the movement gate. -/
inductive GatePos where
  | test
  | clear
  | tick
deriving DecidableEq, Repr

/-- R200: the position inside one row-pair of the refresh pass. -/
inductive PassPos where
  | outputOff
  | latchOff
  | setBus
  | pulse
  | clearBus
  | latchOn
  | outputAfter
  | address
deriving DecidableEq, Repr

/-- R24: the sequencer's position, the phase being executed and "whatever position the pseudocode of a phase is at". -/
inductive SeqPos where
  | p1 (at_ : DrainPos)
  | p2 (at_ : ScanPos)
  | p3
  | p4
  | p5 (at_ : GatePos)
  | p6 (at_ : PassPos)
deriving DecidableEq, Repr

/-- R24: the register `phase`, the phase of the position. -/
def SeqPos.phase : SeqPos → Phase
  | .p1 _ => .p1
  | .p2 _ => .p2
  | .p3 => .p3
  | .p4 => .p4
  | .p5 _ => .p5
  | .p6 _ => .p6

/-- R28: whether a conversion is in flight. -/
inductive Conv where
  | idle
  | busy
deriving DecidableEq, Repr

/-- R22, R104: what a sweep that found a key yields beside the key word: row, column, linear index, character. -/
structure KeyHit where
  row : Fin 4
  col : Fin 3
  idx : Fin 12
  char : BitVec 8
deriving DecidableEq, Repr

/-- R22: the register `key`: the fields of the key word K5 and, when pressed, the rest of the scan's result. -/
structure KeyReg where
  pressed : Bool
  v : BitVec 4
  hit : Option KeyHit
deriving DecidableEq, Repr

/-- R23: an accumulator of two slots (`acc_line`, `acc_rect`). -/
structure Acc2 where
  slot0 : Point
  slot1 : Point
deriving DecidableEq, Repr

/-- R23: an accumulator of three slots (`acc_tri`). -/
structure Acc3 where
  slot0 : Point
  slot1 : Point
  slot2 : Point
deriving DecidableEq, Repr

/-- R145: every slot `UNSET`. -/
def Acc2.unset : Acc2 := ⟨.unset, .unset⟩

/-- R145: every slot `UNSET`. -/
def Acc3.unset : Acc3 := ⟨.unset, .unset, .unset⟩

/-- R236: the events of the trace, output events and input samples, with the names of R236's table:
`START(a)`, `COL+(c)`, `COL-(c)`, `ROWS?=m`, `BTN?=b`, `ADDR(i)`, `OE(b)`, `LAT(b)`, `CLK`, `BUS(u,l)`, `CLR`. -/
inductive Event where
  | start (a : Axis)
  | columnOn (c : Fin 3)
  | columnOff (c : Fin 3)
  | rows (m : BitVec 4)
  | btn (b : Bool)
  | addr (i : Nat)
  | outputEnable (b : Bool)
  | latch (b : Bool)
  | clk
  | bus (upper lower : Color)
  | clr
deriving DecidableEq, Repr

/-- R34, R224: what the outside can do between two atomic steps of the main sequencer: let the completion agent of an
axis or the timer agent take its step, or change an input (assumption log 2). -/
inductive EnvMove where
  /-- the completion agent of the axis steps (R92). -/
  | complete (a : Axis)
  /-- a base tick: the timer agent steps (R232). -/
  | baseTick
  /-- `adc_in[a]` becomes another raw value. -/
  | setAdc (a : Axis) (raw : Nat)
  /-- the button's level changes. -/
  | setButton (b : Bool)
  /-- the set of held keys changes. -/
  | setKeys (keys : List (Fin 4 × Fin 3))
deriving DecidableEq, Repr

/-- R50: who takes the next atomic step. -/
inductive Move where
  | main
  | env (e : EnvMove)
deriving DecidableEq, Repr

/-- R31, R40, R42, R43: the frame buffer as (linear cell number, colour) pairs in one canonical form: numbers strictly
rising, no entry equal to `Config.unlisted`, which an unlisted cell reads as (`Memory.wf`). The unit is one cell; R42
forbids bytes underneath it (assumption log 4). -/
abbrev Memory := List (Nat × Color)

/-- The whole machine. Each field names the rule that gives it; the last five are the model's own (INVENTORY.md). -/
structure State where
  /-- R6, R36: the parameters. -/
  cfg : Config
  /-- R11 `cur_x, cur_y`. -/
  cur : Point
  /-- R12 `prev_x, prev_y`. -/
  prev : Point
  /-- R13. -/
  prevColor : Color
  /-- R14. -/
  blinkCnt : Nat
  /-- R15. -/
  blinkOn : Bool
  /-- R16. -/
  mode : Mode
  /-- R17, the four stored bits. -/
  sel : BitVec 4
  /-- R18. -/
  drawColor : Color
  /-- R19. -/
  joy : PerAxis Nat
  /-- R20. -/
  btnPrev : Bool
  /-- R21. -/
  btnFlag : Bool
  /-- R22. -/
  key : KeyReg
  /-- R23. -/
  accLine : Acc2
  /-- R23. -/
  accRect : Acc2
  /-- R23. -/
  accTri : Acc3
  /-- R24 `phase` and the position inside it. -/
  seq : SeqPos
  /-- R24. -/
  axisI : Axis
  /-- R24. -/
  colI : Fin 3
  /-- R24. -/
  rowI : Fin 4
  /-- R24. -/
  pairI : Nat
  /-- R24. -/
  colmI : Nat
  /-- R100, the sweep's local `m`. -/
  scanMask : BitVec 4
  /-- R100, the sweep's locals `found` and `r0`. -/
  scanHit : Option (Fin 4)
  /-- R25. -/
  sample : PerAxis Nat
  /-- R26. -/
  fresh : PerAxis Bool
  /-- R27. -/
  movementDue : Bool
  /-- R28. -/
  conv : PerAxis Conv
  /-- R29. -/
  timerDiv : Nat
  /-- R29. -/
  timerCnt : Nat
  /-- R30. -/
  oe : Bool
  /-- R30. -/
  lat : Bool
  /-- R30. -/
  clk : Bool
  /-- R30. -/
  busUpper : Color
  /-- R30. -/
  busLower : Color
  /-- R30. -/
  rowAddr : Nat
  /-- R30. -/
  colDrive : Vector Bool 3
  /-- R31. -/
  fb : Memory
  /-- R34 `adc_in[a]`, an input level. -/
  adcIn : PerAxis Nat
  /-- R34, what `read_button()` samples, an input level. -/
  button : Bool
  /-- R34 `keys_down`, an input level. -/
  keysDown : List (Fin 4 × Fin 3)
  /-- R50: the schedule still to come; when it is empty the main sequencer steps. -/
  moves : List Move
  /-- R236: the run's events so far, newest first. -/
  trace : List Event
deriving DecidableEq, Repr

/-- Why the machine stops. -/
inductive Fault where
  /-- Raised by a raw frame-buffer access outside the buffer: by a tick whose cursor is out of bounds or by a refresh step
  whose indices are, which no run reaches (R11, R24, R45). U4: such an access "must not return a colour and must not alias
  another cell". Safe: the model stops where the spec gives no meaning. -/
  | frameBufferOutOfBounds (x y : Int)
deriving DecidableEq, Repr

/-- Why an instruction has no meaning. -/
inductive Refusal where
  /-- Raised by an arm of `exec` whose instruction is not modelled yet; no arm raises it. Safe: nothing is executed. -/
  | notModelled (mnemonic : String)
deriving DecidableEq, Repr

/-- The outcome of a step or of an instruction. -/
abbrev Result := Host.Outcome State Fault Refusal

/-- R31, R38: the frame buffer after reset, `FB[x][y] = FB_INIT(x, y)`, in the canonical form. -/
def initialCells (cfg : Config) : Memory :=
  (List.range' 0 (cfg.width * cfg.height)).filterMap fun a =>
    let c := cfg.fbInit.colorAt cfg.width (a % cfg.width) (a / cfg.width)
    if c = Config.unlisted then none else some (a, c)

/-- R38: the state after reset, for any parameters. `sample[a]` is unspecified by the spec (R25, U3): the body-less
constant `Config.sampleAtReset`, narrowed to the sample's width (assumption log 3). The inputs have R72's defaults. -/
def State.resetWith (cfg : Config) : State where
  cfg := cfg
  cur := ⟨0, 0⟩
  prev := ⟨0, 0⟩
  prevColor := cfg.fbInit.colorAt cfg.width 0 0
  blinkCnt := 0
  blinkOn := false
  mode := .draw
  sel := 2#4
  drawColor := cfg.palette[cfg.defaultColorIndex]
  joy := ⟨cfg.neutralX, cfg.neutralY⟩
  btnPrev := false
  btnFlag := false
  key := ⟨false, 0#4, none⟩
  accLine := .unset
  accRect := .unset
  accTri := .unset
  seq := .p1 .test
  axisI := .x
  colI := 0
  rowI := 0
  pairI := 0
  colmI := 0
  scanMask := 0#4
  scanHit := none
  sample := ⟨Config.sampleAtReset .x % 2 ^ cfg.sampleBits, Config.sampleAtReset .y % 2 ^ cfg.sampleBits⟩
  fresh := ⟨false, false⟩
  movementDue := false
  conv := ⟨.busy, .busy⟩
  timerDiv := cfg.divReset
  timerCnt := 0
  oe := false
  lat := false
  clk := false
  busUpper := .black
  busLower := .black
  rowAddr := 0
  colDrive := #v[false, false, false]
  fb := initialCells cfg
  adcIn := ⟨cfg.neutralX, cfg.neutralY⟩
  button := false
  keysDown := []
  moves := []
  trace := []

/-- R38 with the reference parameters of R6 (assumption log 1). -/
def State.reset : State := State.resetWith Config.reference

end Sys2Proof.Machine
end

