-- ==== Sys2Proof/Machine/Operands.lean ====
section
/-! DEFINITION. Operand forms and packed words: the two decoded words read from the registers, the key table, palette and
divisor operands (30_encoding.md R61 to R67, R70), points in bounds (R43). -/

namespace Sys2Proof.Machine

/-- R16: `Color = 0b00, Fill = 0b01, Draw = 0b10, Speed = 0b11`. -/
def Mode.bits : Mode → BitVec 2
  | .color => 0b00#2
  | .fill => 0b01#2
  | .draw => 0b10#2
  | .speed => 0b11#2

/-- R16: the mode stored as two bits. -/
def Mode.ofBits (b : BitVec 2) : Mode :=
  match b with
  | 0b00#2 => .color
  | 0b01#2 => .fill
  | 0b10#2 => .draw
  | _ => .speed

/-- R61: the key word `pressed ‖ v` of the register `key`. -/
def keyWord (s : State) : KeyWord := makeKeyWord s.key.pressed s.key.v

/-- R65: the mode word `mode ‖ sel`: "the concatenation of two registers and is read, never fetched". -/
def modeWord (s : State) : ModeWord := makeModeWord s.mode.bits s.sel

/-- R63: `idx = row*3 + col`. -/
def linearIndex (row : Fin 4) (col : Fin 3) : Fin 12 := ⟨row.val * 3 + col.val, by omega⟩

/-- R32: `KEYLUT[0..11]`, each entry a character (ASCII, G1) and a nibble value. -/
def keyLut : Vector (BitVec 8 × BitVec 4) 12 :=
  #v[(0x31#8, 0x1#4), (0x32#8, 0x2#4), (0x33#8, 0x3#4),
     (0x34#8, 0x4#4), (0x35#8, 0x5#4), (0x36#8, 0x6#4),
     (0x37#8, 0x7#4), (0x38#8, 0x8#4), (0x39#8, 0x9#4),
     (0x2A#8, 0xA#4), (0x30#8, 0x0#4), (0x23#8, 0xB#4)]

/-- R100, R104: the register `key` after a sweep that found the key at `(row, col)`. -/
def keyFound (row : Fin 4) (col : Fin 3) : KeyReg :=
  let idx := linearIndex row col
  { pressed := true, v := keyLut[idx].2, hit := some { row := row, col := col, idx := idx, char := keyLut[idx].1 } }

/-- R100, R105: the register `key` after a sweep that found none; R61: "the scanner writes `v = 0`". -/
def keyNone : KeyReg := { pressed := false, v := 0#4, hit := none }

/-- R67: the index `Selection - 1` of a selection in 1 .. 8. -/
def selIndex (n : BitVec 4) : Fin 8 := ⟨(n.toNat - 1) % 8, Nat.mod_lt _ (by decide)⟩

/-- R67: `PALETTE[n - 1]`. -/
def paletteColor (cfg : Config) (n : BitVec 4) : Color := cfg.palette[selIndex n]

/-- R67, R135: `SPEED_DIV(n)`. -/
def divisorOf (cfg : Config) (n : BitVec 4) : Nat := cfg.speedDiv[selIndex n]

/-- R41: `c[2:0] = red ‖ green ‖ blue`. -/
def colorBits (c : Color) : BitVec 3 := BitVec.ofBool c.r ++ BitVec.ofBool c.g ++ BitVec.ofBool c.b

/-- R70: the colour-bus word, upper colour in bits 5:3, lower in bits 2:0. -/
def busWord (s : State) : BitVec 6 := colorBits s.busUpper ++ colorBits s.busLower

/-- R70: the column select, bit `c` is `col_drive[c]`. -/
def columnSelect (s : State) : BitVec 3 :=
  BitVec.ofBool s.colDrive[2] ++ BitVec.ofBool s.colDrive[1] ++ BitVec.ofBool s.colDrive[0]

/-- R70, R208: the row-pair address as `ADDR_BITS` lines. -/
def rowAddressWord (s : State) : BitVec s.cfg.addrBits := BitVec.ofNat s.cfg.addrBits s.rowAddr

/-- R102: row line `r` is asserted when some driven column has a held key in row `r`. -/
def rowAsserted (s : State) (r : Fin 4) : Bool :=
  (s.colDrive[0] && s.keysDown.contains (r, 0)) || (s.colDrive[1] && s.keysDown.contains (r, 1)) ||
    (s.colDrive[2] && s.keysDown.contains (r, 2))

/-- R70, R102: the row mask, bit `r` is row line `r`. -/
def rowMask (s : State) : BitVec 4 :=
  BitVec.ofBool (rowAsserted s 3) ++ BitVec.ofBool (rowAsserted s 2) ++ BitVec.ofBool (rowAsserted s 1) ++
    BitVec.ofBool (rowAsserted s 0)

/-- R9, R43: `in_bounds(x, y)`. -/
abbrev inBounds (cfg : Config) (x y : Int) : Prop :=
  0 ≤ x ∧ x ≤ (cfg.width : Int) - 1 ∧ 0 ≤ y ∧ y ≤ (cfg.height : Int) - 1

/-- R43: the linear cell number `y*W + x`. -/
def cellNumber (cfg : Config) (x y : Int) : Nat := y.toNat * cfg.width + x.toNat

/-- R54: `NPAIRS`-row halves: the row of the lower half that is paired with row `p`. -/
def lowerRow (cfg : Config) (p : Nat) : Nat := p + cfg.npairs

/-- R8, R47: the colour of a pattern at column `x`, row `y`. -/
def patternColor (cfg : Config) (pat : Pattern) (x y : Nat) : Color := pat.colorAt cfg.width x y

/-- R210: `ADDR_AFTER(p)`. -/
def addrAfter (cfg : Config) (p : Nat) : Nat :=
  match cfg.addrAfter with
  | .next => (p + 1) % cfg.npairs
  | .same => p

/-- R200, R24: the index after column `c` of the keypad, if there is one. -/
def nextCol (c : Fin 3) : Option (Fin 3) := if h : c.val + 1 < 3 then some ⟨c.val + 1, h⟩ else none

/-- R100, R24: the index after row `r` of the keypad, if there is one. -/
def nextRow (r : Fin 4) : Option (Fin 4) := if h : r.val + 1 < 4 then some ⟨r.val + 1, h⟩ else none

end Sys2Proof.Machine
end

