-- ==== Sys2Proof/Machine/Ops.lean ====
section
/-! DEFINITION. The named operations over the frame buffer, the registers and the ports (20_memory.md R40 to R49,
44_mode_semantics.md R145 to R147, 60_exceptions.md R236). The hardware has no exception (R220), so there is no exception
entry; an interrupt is an agent's step (Machine/Agents.lean). -/

namespace Sys2Proof.Machine

/-! ### The frame buffer as a memory of cells -/

/-- The colour of a cell; an unlisted cell reads as `FB_INIT` (R31, R38). -/
def Memory.read : Memory → Nat → Color
  | [], _ => Config.unlisted
  | (b, c) :: rest, a => if a = b then c else Memory.read rest a

/-- One cell written, the canonical form kept. -/
def Memory.write : Memory → Nat → Color → Memory
  | [], a, c => if c = Config.unlisted then [] else [(a, c)]
  | (b, d) :: rest, a, c =>
    if a < b then (if c = Config.unlisted then (b, d) :: rest else (a, c) :: (b, d) :: rest)
    else if a = b then (if c = Config.unlisted then rest else (a, c) :: rest)
    else (b, d) :: Memory.write rest a c

/-- The memory whose cell `a` holds `f a`, for the cells `lo .. lo + n - 1`. -/
def Memory.buildFrom (f : Nat → Color) : Nat → Nat → Memory
  | _, 0 => []
  | lo, n + 1 => if f lo = Config.unlisted then Memory.buildFrom f (lo + 1) n else (lo, f lo) :: Memory.buildFrom f (lo + 1) n

/-- The canonical form, all cell numbers in `lo .. n - 1`. -/
def Memory.wfFrom (n : Nat) : Nat → Memory → Bool
  | _, [] => true
  | lo, (a, c) :: rest => decide (lo ≤ a) && decide (a < n) && decide (c ≠ Config.unlisted) && Memory.wfFrom n (a + 1) rest

/-- The canonical form of a buffer of `n` cells: numbers strictly rising and below `n`, no entry equal to what an unlisted
cell reads as. -/
def Memory.wf (n : Nat) (m : Memory) : Bool := Memory.wfFrom n 0 m

/-- R31: how many cells the buffer has, `W * H`. -/
def cellCount (cfg : Config) : Nat := cfg.width * cfg.height

/-- R45 `FbRead(x, y)`: in-bounds cells only (U4: no colour for any other). -/
def fbRead (s : State) (x y : Int) : Option Color :=
  if inBounds s.cfg x y then some (s.fb.read (cellNumber s.cfg x y)) else none

/-- R9 `FbWrite(x, y, c)`: in-bounds cells only (U4). -/
def fbWrite (x y : Int) (c : Color) (s : State) : Option State :=
  if inBounds s.cfg x y then some { s with fb := s.fb.write (cellNumber s.cfg x y) c } else none

/-- R44 on the cells alone: the bounds check, then the write; nothing outside. -/
def drawCell (cfg : Config) (c : Color) (fb : Memory) (p : Point) : Memory :=
  if inBounds cfg p.x p.y then fb.write (cellNumber cfg p.x p.y) c else fb

/-- R44 `draw(x, y, c)`: "out-of-bounds draw requests are silently no-ops". -/
def draw (x y : Int) (c : Color) (s : State) : State := { s with fb := drawCell s.cfg c s.fb ⟨x, y⟩ }

/-- A finite sequence of `draw` calls in one colour (R181). -/
def drawCells (cells : List Point) (c : Color) (s : State) : State :=
  { s with fb := cells.foldl (drawCell s.cfg c) s.fb }

/-- R46 `fill(c)`. -/
def fill (c : Color) (s : State) : State := { s with fb := Memory.buildFrom (fun _ => c) 0 (cellCount s.cfg) }

/-- R47 `paint(f)`. -/
def paint (pat : Pattern) (s : State) : State :=
  { s with fb := Memory.buildFrom (fun a => patternColor s.cfg pat (a % s.cfg.width) (a / s.cfg.width)) 0 (cellCount s.cfg) }

/-! ### Accumulators -/

/-- R146 for two slots: the first `UNSET` slot takes the point; with none, nothing. -/
def Acc2.append (a : Acc2) (p : Point) : Acc2 :=
  if a.slot0 = .unset then { a with slot0 := p } else if a.slot1 = .unset then { a with slot1 := p } else a

/-- R146 for three slots. -/
def Acc3.append (a : Acc3) (p : Point) : Acc3 :=
  if a.slot0 = .unset then { a with slot0 := p }
  else if a.slot1 = .unset then { a with slot1 := p }
  else if a.slot2 = .unset then { a with slot2 := p } else a

/-- R114, R145: all three accumulators reset. -/
def resetAccumulators (s : State) : State := { s with accLine := .unset, accRect := .unset, accTri := .unset }

/-- R118 `activate(n)`. -/
def activate (n : BitVec 4) (s : State) : State :=
  if n = 3#4 then { s with accLine := .unset }
  else if n = 4#4 then { s with accRect := .unset }
  else if n = 5#4 then { s with accTri := .unset }
  else s

/-! ### Mode, selection and their operands -/

/-- R112 to R115: the mode is entered with `sel` reset to `NONE`. -/
def enterMode (m : Mode) (s : State) : State := { s with mode := m, sel := selNone }

/-- R116 `SEL n`: `sel <- n`, and a tool newly selected in Draw mode is activated. -/
def select (n : BitVec 4) (s : State) : State :=
  if s.mode = .draw ∧ n ≠ s.sel then activate n { s with sel := n } else { s with sel := n }

/-- R131: `draw_color <- PALETTE[n - 1]`. -/
def setDrawColor (n : BitVec 4) (s : State) : State := { s with drawColor := paletteColor s.cfg n }

/-- R133: `fill(PALETTE[n - 1]); sel <- NONE`. -/
def fillOnce (n : BitVec 4) (s : State) : State := { fill (paletteColor s.cfg n) s with sel := selNone }

/-- R135: `timer_div <- SPEED_DIV(n)`; `timer_cnt` is not touched. -/
def setDivisor (n : BitVec 4) (s : State) : State := { s with timerDiv := divisorOf s.cfg n }

/-! ### The collaborator primitives of R236 -/

/-- R236: an event is appended to the trace. -/
def emit (e : Event) (s : State) : State := { s with trace := e :: s.trace }

/-- R90 `start_conversion(a)`; a busy axis stays busy. -/
def startConversion (a : Axis) (s : State) : State := emit (.start a) { s with conv := s.conv.set a .busy }

/-- R91 `read_sample(a)`. -/
def readSample (a : Axis) (s : State) : Nat := s.sample.get a

/-- R101 `drive_column(c)`. -/
def driveColumn (c : Fin 3) (s : State) : State := emit (.columnOn c) { s with colDrive := s.colDrive.set c true }

/-- R101 `release_column(c)`. -/
def releaseColumn (c : Fin 3) (s : State) : State := emit (.columnOff c) { s with colDrive := s.colDrive.set c false }

/-- R203 `set_output_enable(b)`. -/
def setOutputEnable (b : Bool) (s : State) : State := emit (.outputEnable b) { s with oe := b }

/-- R204 `set_latch(b)`. -/
def setLatch (b : Bool) (s : State) : State := emit (.latch b) { s with lat := b }

/-- R205 `set_color_bus(u, l)`: an assignment of all six lines. -/
def setColorBus (u l : Color) (s : State) : State := emit (.bus u l) { s with busUpper := u, busLower := l }

/-- R206 `pulse_clock()`: `clk <- 1; clk <- 0` within the one step. -/
def pulseClock (s : State) : State := emit .clk { { s with clk := true } with clk := false }

/-- R207 `clear_color_bus()`. -/
def clearColorBus (s : State) : State := emit .clr { s with busUpper := .black, busLower := .black }

/-- R208 `set_row_address(i)`. -/
def setRowAddress (i : Nat) (s : State) : State := emit (.addr i) { s with rowAddr := i }

end Sys2Proof.Machine
end

