-- ==== Sys2Proof/Machine/Flags.lean ====
section
/-! DEFINITION. Every flag computation: `fresh[a]`, `movement_due`, `btn_flag`, `btn_prev`, `blink_on`, `blink_cnt`
(10_state.md R14, R15, R20, R21, R26, R27). -/

namespace Sys2Proof.Machine

/-- R91 `sample_fresh(a)`: reading a flag does not clear it (R49). -/
def sampleFresh (a : Axis) (s : State) : Bool := s.fresh.get a

/-- R91 `clear_fresh(a)`. -/
def clearFresh (a : Axis) (s : State) : State := { s with fresh := s.fresh.set a false }

/-- R233 `movement_due()`. -/
def readMovementDue (s : State) : Bool := s.movementDue

/-- R233 `clear_movement_due()`. -/
def clearMovementDue (s : State) : State := { s with movementDue := false }

/-- R148: "In every P4, after the operation, `btn_flag <- false`, whichever operation ran." -/
def consumeButton (s : State) : State := { s with btnFlag := false }

/-- R166 `sample_button()`: the only place the button is read; an edge sets the flag. -/
def sampleButton (s : State) : State :=
  emit (.btn s.button) { s with btnFlag := s.btnFlag || (s.button && !s.btnPrev), btnPrev := s.button }

/-- R165: the toggled flag and the colour the toggle writes. -/
def blinkColor (s : State) : Color := if !s.blinkOn then s.cfg.highlight else s.prevColor

/-- R163, R150: the active tool is trace. -/
abbrev traceActive (s : State) : Prop := s.mode = .draw ∧ s.sel = 2#4

/-- R169: the position after T2 differs from the position recorded in T1. -/
abbrev cursorMoved (s : State) : Prop := s.cur.x ≠ s.prev.x ∨ s.cur.y ≠ s.prev.y

end Sys2Proof.Machine
end

