-- ==== Sys2Proof/Machine/Acquisition.lean ====
section
/-! DEFINITION. Phase P1, the drain of the analog samples (41_analog_acquisition.md R90 to R97). -/

namespace Sys2Proof.Machine

/-- R94: after the body for axis X comes the body for axis Y, and after that phase P2. -/
def drainNext (s : State) : State :=
  match s.axisI with
  | .x => { s with axisI := .y, seq := .p1 .test }
  | .y => { s with axisI := .x, seq := .p2 .drive }

/-- R94: one atomic step of P1 for the axis `axis_i`. -/
def drainStep (at_ : DrainPos) (s : State) : State :=
  match at_ with
  | .test => if sampleFresh s.axisI s then { s with seq := .p1 .clear } else drainNext s
  | .clear => { clearFresh s.axisI s with seq := .p1 .read }
  | .read => { s with joy := s.joy.set s.axisI (readSample s.axisI s), seq := .p1 .start }
  | .start => drainNext (startConversion s.axisI s)

end Sys2Proof.Machine
end

