-- ==== Sys2Proof/Machine/Agents.lean ====
section
/-! DEFINITION. The three asynchronous agents and the environment's inputs (41_analog_acquisition.md R92,
60_exceptions.md R224 to R232, 10_state.md R34). Taking an interrupt is the agent's step, done whole; nothing is saved and
nothing restored (R228, R229). -/

namespace Sys2Proof.Machine

/-- R92 `complete(a)`: enabled when `conv[a] = busy`; not enabled, the agent has no step and nothing changes
(assumption log 9). -/
def completeConversion (a : Axis) (s : State) : State :=
  if s.conv.get a = .busy then
    { s with sample := s.sample.set a (s.adcIn.get a), fresh := s.fresh.set a true, conv := s.conv.set a .idle }
  else s

/-- R232 `timer_fire()`, on a base tick. -/
def timerFire (s : State) : State :=
  if s.timerCnt + 1 ≥ s.timerDiv then { s with movementDue := true, timerCnt := 0 }
  else { s with timerCnt := s.timerCnt + 1 }

/-- R34: a raw value is "an integer in `0 .. 2^SAMPLE_BITS - 1`"; the port has no more lines (assumption log 11). -/
def adcPort (cfg : Config) (raw : Nat) : Nat := raw % 2 ^ cfg.sampleBits

/-- One step of an agent, or one change of an input. -/
def envStep (e : EnvMove) (s : State) : State :=
  match e with
  | .complete a => completeConversion a s
  | .baseTick => timerFire s
  | .setAdc a raw => { s with adcIn := s.adcIn.set a (adcPort s.cfg raw) }
  | .setButton b => { s with button := b }
  | .setKeys keys => { s with keysDown := keys }

end Sys2Proof.Machine
end

