-- ==== Sys2Proof/Machine/Cursor.lean ====
section
/-! DEFINITION. The movement gate P5 and the movement tick (40_main_sequencer.md R86, 45_cursor_engine.md R160 to R171). -/

namespace Sys2Proof.Machine

/-- R161, T1: "Record previous position." -/
def recordPrevious (s : State) : State := { s with prev := s.cur }

/-- R162: one axis: both comparisons are strict, the result is clamped to `[0, extent - 1]`. -/
def moveAxis (joy neutral threshold extent : Nat) (c : Int) : Int :=
  if joy > neutral + threshold then min (c + 1) ((extent : Int) - 1)
  else if joy < neutral - threshold then max (c - 1) 0
  else c

/-- R162, T2: both axes, independently. -/
def moveCursor (s : State) : State :=
  { s with cur := ⟨moveAxis s.joy.x s.cfg.neutralX s.cfg.threshold s.cfg.width s.cur.x,
                   moveAxis s.joy.y s.cfg.neutralY s.cfg.threshold s.cfg.height s.cur.y⟩ }

/-- R163, T3: under the trace tool, `draw(cur_x, cur_y, draw_color)`, whether or not the cursor moved. -/
def traceDraw (s : State) : State := if traceActive s then draw s.cur.x s.cur.y s.drawColor s else s

/-- R165 `toggle_blink()`. -/
def toggleBlink (s : State) : Option State :=
  fbWrite s.cur.x s.cur.y (blinkColor s) { s with blinkOn := !s.blinkOn }

/-- R164, T4: the stationary branch. -/
def stationary (s : State) : Option State :=
  let t := { s with blinkCnt := s.blinkCnt + 1 }
  if t.blinkCnt = t.cfg.blinkThreshold then
    (toggleBlink t).map (fun u => sampleButton { u with blinkCnt := 0 })
  else some t

/-- R167, T5: the vacated cell is restored, the new cell's colour remembered. -/
def vacateAndRemember (s : State) : Option State :=
  (fbWrite s.prev.x s.prev.y s.prevColor s).bind fun t =>
    (fbRead t t.cur.x t.cur.y).map fun c => { t with prevColor := c }

/-- R160: the five steps; absent only where a raw frame-buffer access is out of bounds (U4). -/
def tick (s : State) : Option State :=
  let t := traceDraw (moveCursor (recordPrevious s))
  if cursorMoved t then vacateAndRemember t else stationary t

/-- R86: one atomic step of the movement gate: read the flag, clear it, run the tick. -/
def gateStep (at_ : GatePos) (s : State) : Result :=
  match at_ with
  | .test => .next (if readMovementDue s then { s with seq := .p5 .clear } else { s with seq := .p6 .outputOff })
  | .clear => .next { clearMovementDue s with seq := .p5 .tick }
  | .tick =>
    match tick s with
    | some t => .next { t with seq := .p6 .outputOff }
    | none => .fault (.frameBufferOutOfBounds s.cur.x s.cur.y)

end Sys2Proof.Machine
end

