-- ==== Sys2Proof/Machine/ColorMode.lean ====
section
/-! DEFINITION. The mode operations of Color mode (44_mode_semantics.md R131, R132, R148). -/

namespace Sys2Proof.Machine

/-- R131 `COLOR_SET 1`. -/
def execColorSet1 (s : State) : Result := .next (consumeButton (setDrawColor 1#4 s))

/-- R131 `COLOR_SET 2`. -/
def execColorSet2 (s : State) : Result := .next (consumeButton (setDrawColor 2#4 s))

/-- R131 `COLOR_SET 3`. -/
def execColorSet3 (s : State) : Result := .next (consumeButton (setDrawColor 3#4 s))

/-- R131 `COLOR_SET 4`. -/
def execColorSet4 (s : State) : Result := .next (consumeButton (setDrawColor 4#4 s))

/-- R131 `COLOR_SET 5`. -/
def execColorSet5 (s : State) : Result := .next (consumeButton (setDrawColor 5#4 s))

/-- R131 `COLOR_SET 6`. -/
def execColorSet6 (s : State) : Result := .next (consumeButton (setDrawColor 6#4 s))

/-- R131 `COLOR_SET 7`. -/
def execColorSet7 (s : State) : Result := .next (consumeButton (setDrawColor 7#4 s))

/-- R131 `COLOR_SET 8`. -/
def execColorSet8 (s : State) : Result := .next (consumeButton (setDrawColor 8#4 s))

/-- R132 `COLOR_UNREACHABLE_0`: only the button flag is consumed. R69: as the `..._NONE` word of its mode. -/
def execColorUnreachable0 (s : State) : Result := .next (consumeButton s)

/-- R132 `COLOR_UNREACHABLE_9`: only the button flag is consumed. R69: as the `..._NONE` word of its mode. -/
def execColorUnreachable9 (s : State) : Result := .next (consumeButton s)

/-- R132 `COLOR_UNREACHABLE_A`: only the button flag is consumed. R69: as the `..._NONE` word of its mode. -/
def execColorUnreachableA (s : State) : Result := .next (consumeButton s)

/-- R132 `COLOR_UNREACHABLE_B`: only the button flag is consumed. R69: as the `..._NONE` word of its mode. -/
def execColorUnreachableB (s : State) : Result := .next (consumeButton s)

/-- R132 `COLOR_UNREACHABLE_C`: only the button flag is consumed. R69: as the `..._NONE` word of its mode. -/
def execColorUnreachableC (s : State) : Result := .next (consumeButton s)

/-- R132 `COLOR_UNREACHABLE_D`: only the button flag is consumed. R69: as the `..._NONE` word of its mode. -/
def execColorUnreachableD (s : State) : Result := .next (consumeButton s)

/-- R132 `COLOR_UNREACHABLE_E`: only the button flag is consumed. R69: as the `..._NONE` word of its mode. -/
def execColorUnreachableE (s : State) : Result := .next (consumeButton s)

/-- R132 `COLOR_NONE`: only the button flag is consumed. -/
def execColorNone (s : State) : Result := .next (consumeButton s)

end Sys2Proof.Machine
end

