-- ==== Sys2Proof/Machine/Render.lean ====
section
/-! DEFINITION. Shape rendering and shape capture (46_shape_render.md R180 to R189, 44_mode_semantics.md R140 to R147). -/

namespace Sys2Proof.Machine

/-- The integers `lo .. hi`, ascending; empty when `hi < lo`. -/
def intRange (lo hi : Int) : List Int := (List.range (hi - lo + 1).toNat).map (fun k => lo + Int.ofNat k)

/-- R182: the cells of the rectangle with opposite corners `p` and `q`, in the order of its loops. -/
def rectCells (p q : Point) : List Point :=
  let xmin := min p.x q.x
  let xmax := max p.x q.x
  let ymin := min p.y q.y
  let ymax := max p.y q.y
  (intRange ymin ymax).flatMap (fun y => [⟨xmin, y⟩, ⟨xmax, y⟩]) ++
    (intRange xmin xmax).flatMap (fun x => [⟨x, ymin⟩, ⟨x, ymax⟩])

/-- R184: the loop, at most `n` rounds, from `(x, y)` with the error term `err`. -/
def lineLoop (target : Point) (dx dy sx sy : Int) : Nat → Int → Int → Int → List Point
  | 0, _, _, _ => []
  | n + 1, x, y, err =>
    ⟨x, y⟩ ::
      if x = target.x ∧ y = target.y then []
      else
        let e2 := 2 * err
        let err1 := if e2 ≥ dy then err + dy else err
        let x1 := if e2 ≥ dy then x + sx else x
        let err2 := if e2 ≤ dx then err1 + dx else err1
        let y1 := if e2 ≤ dx then y + sy else y
        lineLoop target dx dy sx sy n x1 y1 err2

/-- R185 (b): the number of cells of a line, `max(|x1 - x0|, |y1 - y0|) + 1`. -/
def lineLength (p q : Point) : Nat := max (q.x - p.x).natAbs (q.y - p.y).natAbs + 1

/-- R184: the cells of the line from `p` to `q`, in order. The loop is given as many rounds as the line has cells
(R185 (b)), which is when its own exit is taken. -/
def lineCells (p q : Point) : List Point :=
  let dx : Int := (q.x - p.x).natAbs
  let sx : Int := if p.x < q.x then 1 else -1
  let dy : Int := -((q.y - p.y).natAbs : Int)
  let sy : Int := if p.y < q.y then 1 else -1
  lineLoop q dx dy sx sy (lineLength p q) p.x p.y (dx + dy)

/-- R187: the cells of the three edges, in the order and direction of the rule. -/
def triCells (p q r : Point) : List Point := lineCells p q ++ lineCells q r ++ lineCells r p

/-- R182 `render_rect`. -/
def renderRect (p q : Point) (s : State) : State := drawCells (rectCells p q) s.drawColor s

/-- R184 `render_line`. -/
def renderLine (p q : Point) (s : State) : State := drawCells (lineCells p q) s.drawColor s

/-- R187 `render_tri`. -/
def renderTri (p q r : Point) (s : State) : State := drawCells (triCells p q r) s.drawColor s

/-- R147 for `acc_line`: a complete accumulator is rendered and reset, in that order. -/
def completeLine (s : State) : State :=
  if s.accLine.slot1 ≠ .unset then { renderLine s.accLine.slot0 s.accLine.slot1 s with accLine := .unset } else s

/-- R147 for `acc_rect`. -/
def completeRect (s : State) : State :=
  if s.accRect.slot1 ≠ .unset then { renderRect s.accRect.slot0 s.accRect.slot1 s with accRect := .unset } else s

/-- R147 for `acc_tri`. -/
def completeTri (s : State) : State :=
  if s.accTri.slot2 ≠ .unset then
    { renderTri s.accTri.slot0 s.accTri.slot1 s.accTri.slot2 s with accTri := .unset }
  else s

/-- R140: on a button press the cursor's position is appended, and a complete line rendered. -/
def captureLine (s : State) : State :=
  if s.btnFlag then completeLine { s with accLine := s.accLine.append s.cur } else s

/-- R141. -/
def captureRect (s : State) : State :=
  if s.btnFlag then completeRect { s with accRect := s.accRect.append s.cur } else s

/-- R142. -/
def captureTri (s : State) : State :=
  if s.btnFlag then completeTri { s with accTri := s.accTri.append s.cur } else s

end Sys2Proof.Machine
end

