-- ==== Sys2Proof/Machine/DrawMode.lean ====
section
/-! DEFINITION. The mode operations of Draw mode, the tools (44_mode_semantics.md R137 to R144, R149, R148). -/

namespace Sys2Proof.Machine

/-- R138 `DRAW_FREE`, tool 1: no effect in P4. -/
def execDrawFree (s : State) : Result := .next (consumeButton s)

/-- R139 `DRAW_TRACE`, tool 2: no effect in P4; its effect is step T3 of the movement tick (`traceDraw`). -/
def execDrawTrace (s : State) : Result := .next (consumeButton s)

/-- R140 `DRAW_LINE`, tool 3. -/
def execDrawLine (s : State) : Result := .next (consumeButton (captureLine s))

/-- R141 `DRAW_RECT`, tool 4. -/
def execDrawRect (s : State) : Result := .next (consumeButton (captureRect s))

/-- R142 `DRAW_TRI`, tool 5. -/
def execDrawTri (s : State) : Result := .next (consumeButton (captureTri s))

/-- R144 `DRAW_PAT6`, tool 6: `paint(PATTERN6)`; `sel` is kept, so it repeats in every iteration. -/
def execDrawPat6 (s : State) : Result := .next (consumeButton (paint s.cfg.pattern6 s))

/-- R149 `DRAW_PAT7`, tool 7: `paint(PATTERN7)`. -/
def execDrawPat7 (s : State) : Result := .next (consumeButton (paint s.cfg.pattern7 s))

/-- R143 `DRAW_FILL`, tool 8: `fill(draw_color)`; `sel` is kept. -/
def execDrawFill (s : State) : Result := .next (consumeButton (fill s.drawColor s))

/-- R137 `DRAW_UNREACHABLE_0`: only the button flag is consumed. R69: as the `..._NONE` word of its mode. -/
def execDrawUnreachable0 (s : State) : Result := .next (consumeButton s)

/-- R137 `DRAW_UNREACHABLE_9`: only the button flag is consumed. R69: as the `..._NONE` word of its mode. -/
def execDrawUnreachable9 (s : State) : Result := .next (consumeButton s)

/-- R137 `DRAW_UNREACHABLE_A`: only the button flag is consumed. R69: as the `..._NONE` word of its mode. -/
def execDrawUnreachableA (s : State) : Result := .next (consumeButton s)

/-- R137 `DRAW_UNREACHABLE_B`: only the button flag is consumed. R69: as the `..._NONE` word of its mode. -/
def execDrawUnreachableB (s : State) : Result := .next (consumeButton s)

/-- R137 `DRAW_UNREACHABLE_C`: only the button flag is consumed. R69: as the `..._NONE` word of its mode. -/
def execDrawUnreachableC (s : State) : Result := .next (consumeButton s)

/-- R137 `DRAW_UNREACHABLE_D`: only the button flag is consumed. R69: as the `..._NONE` word of its mode. -/
def execDrawUnreachableD (s : State) : Result := .next (consumeButton s)

/-- R137 `DRAW_UNREACHABLE_E`: only the button flag is consumed. R69: as the `..._NONE` word of its mode. -/
def execDrawUnreachableE (s : State) : Result := .next (consumeButton s)

/-- R137 `DRAW_NONE`: only the button flag is consumed. -/
def execDrawNone (s : State) : Result := .next (consumeButton s)

end Sys2Proof.Machine
end

