-- ==== Sys2Proof/Machine/FillMode.lean ====
section
/-! DEFINITION. The mode operations of Fill mode (44_mode_semantics.md R133, R134, R148). -/

namespace Sys2Proof.Machine

/-- R133 `FILL_DO 1`. -/
def execFillDo1 (s : State) : Result := .next (consumeButton (fillOnce 1#4 s))

/-- R133 `FILL_DO 2`. -/
def execFillDo2 (s : State) : Result := .next (consumeButton (fillOnce 2#4 s))

/-- R133 `FILL_DO 3`. -/
def execFillDo3 (s : State) : Result := .next (consumeButton (fillOnce 3#4 s))

/-- R133 `FILL_DO 4`. -/
def execFillDo4 (s : State) : Result := .next (consumeButton (fillOnce 4#4 s))

/-- R133 `FILL_DO 5`. -/
def execFillDo5 (s : State) : Result := .next (consumeButton (fillOnce 5#4 s))

/-- R133 `FILL_DO 6`. -/
def execFillDo6 (s : State) : Result := .next (consumeButton (fillOnce 6#4 s))

/-- R133 `FILL_DO 7`. -/
def execFillDo7 (s : State) : Result := .next (consumeButton (fillOnce 7#4 s))

/-- R133 `FILL_DO 8`. -/
def execFillDo8 (s : State) : Result := .next (consumeButton (fillOnce 8#4 s))

/-- R134 `FILL_UNREACHABLE_0`: only the button flag is consumed. R69: as the `..._NONE` word of its mode. -/
def execFillUnreachable0 (s : State) : Result := .next (consumeButton s)

/-- R134 `FILL_UNREACHABLE_9`: only the button flag is consumed. R69: as the `..._NONE` word of its mode. -/
def execFillUnreachable9 (s : State) : Result := .next (consumeButton s)

/-- R134 `FILL_UNREACHABLE_A`: only the button flag is consumed. R69: as the `..._NONE` word of its mode. -/
def execFillUnreachableA (s : State) : Result := .next (consumeButton s)

/-- R134 `FILL_UNREACHABLE_B`: only the button flag is consumed. R69: as the `..._NONE` word of its mode. -/
def execFillUnreachableB (s : State) : Result := .next (consumeButton s)

/-- R134 `FILL_UNREACHABLE_C`: only the button flag is consumed. R69: as the `..._NONE` word of its mode. -/
def execFillUnreachableC (s : State) : Result := .next (consumeButton s)

/-- R134 `FILL_UNREACHABLE_D`: only the button flag is consumed. R69: as the `..._NONE` word of its mode. -/
def execFillUnreachableD (s : State) : Result := .next (consumeButton s)

/-- R134 `FILL_UNREACHABLE_E`: only the button flag is consumed. R69: as the `..._NONE` word of its mode. -/
def execFillUnreachableE (s : State) : Result := .next (consumeButton s)

/-- R134 `FILL_NONE`: only the button flag is consumed. -/
def execFillNone (s : State) : Result := .next (consumeButton s)

end Sys2Proof.Machine
end

