-- ==== Sys2Proof/Machine/KeyInstr.lean ====
section
/-! DEFINITION. The key instructions of phase P3 (43_mode_dispatcher.md). Each writes only `mode`, `sel` and the accumulators. -/

namespace Sys2Proof.Machine

/-- R111 `NOKEY`: no effect. -/
def execNokey (_v : BitVec 4) (s : State) : Result := .next s

/-- R116 `SEL 1`, K5 0x11. -/
def execSel1 (s : State) : Result := .next (select 1#4 s)

/-- R116 `SEL 2`, K5 0x12. -/
def execSel2 (s : State) : Result := .next (select 2#4 s)

/-- R116 `SEL 3`, K5 0x13. -/
def execSel3 (s : State) : Result := .next (select 3#4 s)

/-- R116 `SEL 4`, K5 0x14. -/
def execSel4 (s : State) : Result := .next (select 4#4 s)

/-- R116 `SEL 5`, K5 0x15. -/
def execSel5 (s : State) : Result := .next (select 5#4 s)

/-- R116 `SEL 6`, K5 0x16. -/
def execSel6 (s : State) : Result := .next (select 6#4 s)

/-- R116 `SEL 7`, K5 0x17. -/
def execSel7 (s : State) : Result := .next (select 7#4 s)

/-- R116 `SEL 8`, K5 0x18. -/
def execSel8 (s : State) : Result := .next (select 8#4 s)

/-- R115 `MODE_SPEED`. -/
def execModeSpeed (s : State) : Result := .next (enterMode .speed s)

/-- R112 `MODE_COLOR`. -/
def execModeColor (s : State) : Result := .next (enterMode .color s)

/-- R113 `MODE_FILL`. -/
def execModeFill (s : State) : Result := .next (enterMode .fill s)

/-- R114 `MODE_DRAW`: entering Draw also resets every accumulator. -/
def execModeDraw (s : State) : Result := .next (resetAccumulators (enterMode .draw s))

/-- R117, R68: a reserved key value does nothing. -/
def execK5Reserved (_v : BitVec 4) (s : State) : Result := .next s

end Sys2Proof.Machine
end

