-- ==== Sys2Proof/Machine/SpeedMode.lean ====
section
/-! DEFINITION. The mode operations of Speed mode (44_mode_semantics.md R135, R136, R148). -/

namespace Sys2Proof.Machine

/-- R135 `SPEED_SET 1`. -/
def execSpeedSet1 (s : State) : Result := .next (consumeButton (setDivisor 1#4 s))

/-- R135 `SPEED_SET 2`. -/
def execSpeedSet2 (s : State) : Result := .next (consumeButton (setDivisor 2#4 s))

/-- R135 `SPEED_SET 3`. -/
def execSpeedSet3 (s : State) : Result := .next (consumeButton (setDivisor 3#4 s))

/-- R135 `SPEED_SET 4`. -/
def execSpeedSet4 (s : State) : Result := .next (consumeButton (setDivisor 4#4 s))

/-- R135 `SPEED_SET 5`. -/
def execSpeedSet5 (s : State) : Result := .next (consumeButton (setDivisor 5#4 s))

/-- R135 `SPEED_SET 6`. -/
def execSpeedSet6 (s : State) : Result := .next (consumeButton (setDivisor 6#4 s))

/-- R135 `SPEED_SET 7`. -/
def execSpeedSet7 (s : State) : Result := .next (consumeButton (setDivisor 7#4 s))

/-- R135 `SPEED_SET 8`. -/
def execSpeedSet8 (s : State) : Result := .next (consumeButton (setDivisor 8#4 s))

/-- R136 `SPEED_UNREACHABLE_0`: only the button flag is consumed. R69: as the `..._NONE` word of its mode. -/
def execSpeedUnreachable0 (s : State) : Result := .next (consumeButton s)

/-- R136 `SPEED_UNREACHABLE_9`: only the button flag is consumed. R69: as the `..._NONE` word of its mode. -/
def execSpeedUnreachable9 (s : State) : Result := .next (consumeButton s)

/-- R136 `SPEED_UNREACHABLE_A`: only the button flag is consumed. R69: as the `..._NONE` word of its mode. -/
def execSpeedUnreachableA (s : State) : Result := .next (consumeButton s)

/-- R136 `SPEED_UNREACHABLE_B`: only the button flag is consumed. R69: as the `..._NONE` word of its mode. -/
def execSpeedUnreachableB (s : State) : Result := .next (consumeButton s)

/-- R136 `SPEED_UNREACHABLE_C`: only the button flag is consumed. R69: as the `..._NONE` word of its mode. -/
def execSpeedUnreachableC (s : State) : Result := .next (consumeButton s)

/-- R136 `SPEED_UNREACHABLE_D`: only the button flag is consumed. R69: as the `..._NONE` word of its mode. -/
def execSpeedUnreachableD (s : State) : Result := .next (consumeButton s)

/-- R136 `SPEED_UNREACHABLE_E`: only the button flag is consumed. R69: as the `..._NONE` word of its mode. -/
def execSpeedUnreachableE (s : State) : Result := .next (consumeButton s)

/-- R136 `SPEED_NONE`: only the button flag is consumed. -/
def execSpeedNone (s : State) : Result := .next (consumeButton s)

end Sys2Proof.Machine
end

