-- ==== Sys2Proof/Machine/Dispatch.lean ====
section
/-! DEFINITION. The meaning of every instruction: one arm per constructor of Instr. -/

namespace Sys2Proof.Machine

def exec (i : Instr) (s : State) : Host.Outcome State Fault Refusal :=
  match i with
  | .nokey v => Sys2Proof.Machine.execNokey v s
  | .sel1 => Sys2Proof.Machine.execSel1 s
  | .sel2 => Sys2Proof.Machine.execSel2 s
  | .sel3 => Sys2Proof.Machine.execSel3 s
  | .sel4 => Sys2Proof.Machine.execSel4 s
  | .sel5 => Sys2Proof.Machine.execSel5 s
  | .sel6 => Sys2Proof.Machine.execSel6 s
  | .sel7 => Sys2Proof.Machine.execSel7 s
  | .sel8 => Sys2Proof.Machine.execSel8 s
  | .modeSpeed => Sys2Proof.Machine.execModeSpeed s
  | .modeColor => Sys2Proof.Machine.execModeColor s
  | .modeFill => Sys2Proof.Machine.execModeFill s
  | .modeDraw => Sys2Proof.Machine.execModeDraw s
  | .k5Reserved v => Sys2Proof.Machine.execK5Reserved v s
  | .colorUnreachable0 => Sys2Proof.Machine.execColorUnreachable0 s
  | .colorSet1 => Sys2Proof.Machine.execColorSet1 s
  | .colorSet2 => Sys2Proof.Machine.execColorSet2 s
  | .colorSet3 => Sys2Proof.Machine.execColorSet3 s
  | .colorSet4 => Sys2Proof.Machine.execColorSet4 s
  | .colorSet5 => Sys2Proof.Machine.execColorSet5 s
  | .colorSet6 => Sys2Proof.Machine.execColorSet6 s
  | .colorSet7 => Sys2Proof.Machine.execColorSet7 s
  | .colorSet8 => Sys2Proof.Machine.execColorSet8 s
  | .colorUnreachable9 => Sys2Proof.Machine.execColorUnreachable9 s
  | .colorUnreachableA => Sys2Proof.Machine.execColorUnreachableA s
  | .colorUnreachableB => Sys2Proof.Machine.execColorUnreachableB s
  | .colorUnreachableC => Sys2Proof.Machine.execColorUnreachableC s
  | .colorUnreachableD => Sys2Proof.Machine.execColorUnreachableD s
  | .colorUnreachableE => Sys2Proof.Machine.execColorUnreachableE s
  | .colorNone => Sys2Proof.Machine.execColorNone s
  | .fillUnreachable0 => Sys2Proof.Machine.execFillUnreachable0 s
  | .fillDo1 => Sys2Proof.Machine.execFillDo1 s
  | .fillDo2 => Sys2Proof.Machine.execFillDo2 s
  | .fillDo3 => Sys2Proof.Machine.execFillDo3 s
  | .fillDo4 => Sys2Proof.Machine.execFillDo4 s
  | .fillDo5 => Sys2Proof.Machine.execFillDo5 s
  | .fillDo6 => Sys2Proof.Machine.execFillDo6 s
  | .fillDo7 => Sys2Proof.Machine.execFillDo7 s
  | .fillDo8 => Sys2Proof.Machine.execFillDo8 s
  | .fillUnreachable9 => Sys2Proof.Machine.execFillUnreachable9 s
  | .fillUnreachableA => Sys2Proof.Machine.execFillUnreachableA s
  | .fillUnreachableB => Sys2Proof.Machine.execFillUnreachableB s
  | .fillUnreachableC => Sys2Proof.Machine.execFillUnreachableC s
  | .fillUnreachableD => Sys2Proof.Machine.execFillUnreachableD s
  | .fillUnreachableE => Sys2Proof.Machine.execFillUnreachableE s
  | .fillNone => Sys2Proof.Machine.execFillNone s
  | .drawUnreachable0 => Sys2Proof.Machine.execDrawUnreachable0 s
  | .drawFree => Sys2Proof.Machine.execDrawFree s
  | .drawTrace => Sys2Proof.Machine.execDrawTrace s
  | .drawLine => Sys2Proof.Machine.execDrawLine s
  | .drawRect => Sys2Proof.Machine.execDrawRect s
  | .drawTri => Sys2Proof.Machine.execDrawTri s
  | .drawPat6 => Sys2Proof.Machine.execDrawPat6 s
  | .drawPat7 => Sys2Proof.Machine.execDrawPat7 s
  | .drawFill => Sys2Proof.Machine.execDrawFill s
  | .drawUnreachable9 => Sys2Proof.Machine.execDrawUnreachable9 s
  | .drawUnreachableA => Sys2Proof.Machine.execDrawUnreachableA s
  | .drawUnreachableB => Sys2Proof.Machine.execDrawUnreachableB s
  | .drawUnreachableC => Sys2Proof.Machine.execDrawUnreachableC s
  | .drawUnreachableD => Sys2Proof.Machine.execDrawUnreachableD s
  | .drawUnreachableE => Sys2Proof.Machine.execDrawUnreachableE s
  | .drawNone => Sys2Proof.Machine.execDrawNone s
  | .speedUnreachable0 => Sys2Proof.Machine.execSpeedUnreachable0 s
  | .speedSet1 => Sys2Proof.Machine.execSpeedSet1 s
  | .speedSet2 => Sys2Proof.Machine.execSpeedSet2 s
  | .speedSet3 => Sys2Proof.Machine.execSpeedSet3 s
  | .speedSet4 => Sys2Proof.Machine.execSpeedSet4 s
  | .speedSet5 => Sys2Proof.Machine.execSpeedSet5 s
  | .speedSet6 => Sys2Proof.Machine.execSpeedSet6 s
  | .speedSet7 => Sys2Proof.Machine.execSpeedSet7 s
  | .speedSet8 => Sys2Proof.Machine.execSpeedSet8 s
  | .speedUnreachable9 => Sys2Proof.Machine.execSpeedUnreachable9 s
  | .speedUnreachableA => Sys2Proof.Machine.execSpeedUnreachableA s
  | .speedUnreachableB => Sys2Proof.Machine.execSpeedUnreachableB s
  | .speedUnreachableC => Sys2Proof.Machine.execSpeedUnreachableC s
  | .speedUnreachableD => Sys2Proof.Machine.execSpeedUnreachableD s
  | .speedUnreachableE => Sys2Proof.Machine.execSpeedUnreachableE s
  | .speedNone => Sys2Proof.Machine.execSpeedNone s

end Sys2Proof.Machine
end

