-- ==== Sys2Proof/Machine/Display.lean ====
section
/-! DEFINITION. Phase P6, the refresh pass, one port event a step (47_display_driver.md R200 to R213). -/

namespace Sys2Proof.Machine

/-- R200 step 2, R54: the bus is set to the upper and lower colour of column `colm_i` of pair `pair_i`. -/
def presentColumn (s : State) : Result :=
  match fbRead s s.colmI s.pairI, fbRead s s.colmI (lowerRow s.cfg s.pairI) with
  | some u, some l => .next { setColorBus u l s with seq := .p6 .pulse }
  | _, _ => .fault (.frameBufferOutOfBounds s.colmI s.pairI)

/-- R200: after a column's clear comes the next column in ascending order, and after the last one step 3. -/
def clearColumn (s : State) : State :=
  let t := clearColorBus s
  if s.colmI + 1 < s.cfg.width then { t with colmI := s.colmI + 1, seq := .p6 .setBus }
  else { t with colmI := 0, seq := .p6 .latchOn }

/-- R200 step 3, R210: the address is driven; then comes the next pair, and after the last one the next iteration. -/
def addressPair (s : State) : State :=
  let t := setRowAddress (addrAfter s.cfg s.pairI) s
  if s.pairI + 1 < s.cfg.npairs then { t with pairI := s.pairI + 1, seq := .p6 .outputOff }
  else { t with pairI := 0, seq := .p1 .test }

/-- R200: one atomic step of the pass. -/
def refreshStep (at_ : PassPos) (s : State) : Result :=
  match at_ with
  | .outputOff => .next { setOutputEnable false s with seq := .p6 .latchOff }
  | .latchOff => .next { setLatch false s with seq := .p6 .setBus }
  | .setBus => presentColumn s
  | .pulse => .next { pulseClock s with seq := .p6 .clearBus }
  | .clearBus => .next (clearColumn s)
  | .latchOn => .next { setLatch true s with seq := .p6 .outputAfter }
  | .outputAfter => .next { setOutputEnable s.cfg.oeAfterLatch s with seq := .p6 .address }
  | .address => .next (addressPair s)

end Sys2Proof.Machine
end

