-- ==== Sys2Proof/Machine/Keypad.lean ====
section
/-! DEFINITION. Phase P2, one sweep of the keypad (42_keypad_scanner.md R100 to R107). -/

namespace Sys2Proof.Machine

/-- R100: the sweep ends with `key` written; R106: it keeps nothing for the next one. -/
def endScan (k : KeyReg) (s : State) : State :=
  { s with key := k, colI := 0, rowI := 0, scanMask := 0#4, scanHit := none, seq := .p3 }

/-- R100: one round of the row loop on the mask read: the first asserted row is kept. -/
def scanRow (s : State) : State :=
  let hit := if s.scanMask.getLsbD s.rowI.val ∧ s.scanHit = none then some s.rowI else s.scanHit
  match nextRow s.rowI with
  | some r => { s with scanHit := hit, rowI := r }
  | none => { s with scanHit := hit, rowI := 0, seq := .p2 .release }

/-- R100: the column is released on every path; the sweep stops at the first column with a press. -/
def scanRelease (s : State) : State :=
  let t := releaseColumn s.colI s
  match s.scanHit with
  | some r0 => endScan (keyFound r0 s.colI) t
  | none =>
    match nextCol s.colI with
    | some c => { t with colI := c, scanMask := 0#4, seq := .p2 .drive }
    | none => endScan keyNone t

/-- R100: one atomic step of P2 for the column `col_i`. -/
def scanStep (at_ : ScanPos) (s : State) : State :=
  match at_ with
  | .drive => { driveColumn s.colI s with seq := .p2 .sense }
  | .sense =>
    { emit (.rows (rowMask s)) s with scanMask := rowMask s, scanHit := none, rowI := 0, seq := .p2 .rows }
  | .rows => scanRow s
  | .release => scanRelease s

end Sys2Proof.Machine
end

