-- ==== Sys2Proof/Machine/Sequencer.lean ====
section
/-! DEFINITION. Where the two decoded words come from, and what stands around an instruction: phases P3 and P4
(40_main_sequencer.md R84, R85; 30_encoding.md R64, R65). -/

namespace Sys2Proof.Machine

/-- R84, R110: P3 decodes the key word. -/
def keyInstr (s : State) : Instr := decode (.k5 (keyWord s))

/-- R85, R130: P4 decodes the mode word, as P3 of the same iteration left it (R56). -/
def modeInstr (s : State) : Instr := decode (.m6 (modeWord s))

/-- R80, R81: `phase <- P<n>` after the instruction. -/
def thenPhase (p : SeqPos) (r : Result) : Result :=
  match r with
  | .next t => .next { t with seq := p }
  | .fault f => .fault f
  | .refused f => .refused f

/-- R61, R84: the key word placed in the register `key` at the start of P3. -/
def placeKeyWord (w : KeyWord) (s : State) : State :=
  { s with seq := .p3, key := { s.key with pressed := w.pressed, v := w.v } }

/-- R65, R85: the mode word placed in the registers `mode` and `sel` at the start of P4. -/
def placeModeWord (w : ModeWord) (s : State) : State :=
  { s with seq := .p4, mode := Mode.ofBits w.modeBits, sel := w.selBits }

/-- The word placed where its phase decodes it. -/
def placeWord (w : CodeWord) (s : State) : State :=
  match w with
  | .k5 b => placeKeyWord b s
  | .m6 b => placeModeWord b s

/-- The main sequencer is scheduled to take the very next step. -/
def scheduleMain (s : State) : State := { s with moves := .main :: s.moves }

/-- R88: the iteration boundary, "the moment `phase` returns to `P1`". -/
abbrev atBoundary (s : State) : Prop := s.seq = .p1 .test ∧ s.axisI = .x

end Sys2Proof.Machine
end

