-- ==== Sys2Proof/Machine/Step.lean ====
section
/-! DEFINITION. One atomic step of the machine (20_memory.md R50): of the main sequencer, of an asynchronous agent, or of
an input, as the schedule says. -/

namespace Sys2Proof.Machine

/-- R81: one atomic step of the main sequencer, in the phase it stands in. -/
def mainStep (s : State) : Result :=
  match s.seq with
  | .p1 d => .next (drainStep d s)
  | .p2 q => .next (scanStep q s)
  | .p3 => thenPhase .p4 (exec (keyInstr s) s)
  | .p4 => thenPhase (.p5 .test) (exec (modeInstr s) s)
  | .p5 g => gateStep g s
  | .p6 r => refreshStep r s

/-- R50: the next atomic step in the total order: the head of the schedule; when nothing is scheduled, the main
sequencer's (assumption log 2). -/
def step (s : State) : Host.Outcome State Fault Refusal :=
  match s.moves with
  | [] => mainStep s
  | .main :: rest => mainStep { s with moves := rest }
  | .env e :: rest => .next (envStep e { s with moves := rest })

/-- The state in which the very next step decodes and runs the word `w` of the opcode table: the word in the registers
its phase decodes, the sequencer at that phase, and the main sequencer next in the schedule (assumption log 8). A number
that is no word of the format changes nothing. -/
def State.withFetchWord (s : State) (nbits w : Nat) : State :=
  match tableCodeWord nbits w with
  | some c => scheduleMain (placeWord c s)
  | none => s

end Sys2Proof.Machine
end

