-- ==== Sys2Proof/Safety.lean ====
section
/-! DEFINITION. What a safe run is, in the terms the claims use: the invariants the spec's rules state, the discipline of the
event trace (R213), and the event sequence of one refresh pass as R200 writes it. -/

namespace Sys2Proof.Machine

/-- R43: a point in bounds. -/
abbrev pointInBounds (cfg : Config) (p : Point) : Prop := inBounds cfg p.x p.y

/-- R23, R146: a slot is `UNSET` or holds a captured cursor position. -/
abbrev slotOk (cfg : Config) (p : Point) : Prop := p = .unset ∨ pointInBounds cfg p

/-- R11, R12: the cursor and its previous position are in bounds. -/
abbrev CursorOk (s : State) : Prop := pointInBounds s.cfg s.cur ∧ pointInBounds s.cfg s.prev

/-- R17: `sel` is `NONE` or 1 to 8. -/
abbrev SelOk (s : State) : Prop := s.sel = selNone ∨ (1 ≤ s.sel.toNat ∧ s.sel.toNat ≤ 8)

/-- R23: the filled slots are a prefix, at least one slot is `UNSET`, and every filled slot is in bounds. -/
abbrev AccumulatorsOk (s : State) : Prop :=
  (slotOk s.cfg s.accLine.slot0 ∧ s.accLine.slot1 = .unset) ∧
  (slotOk s.cfg s.accRect.slot0 ∧ s.accRect.slot1 = .unset) ∧
  (slotOk s.cfg s.accTri.slot0 ∧ slotOk s.cfg s.accTri.slot1 ∧ s.accTri.slot2 = .unset ∧
    (s.accTri.slot0 = .unset → s.accTri.slot1 = .unset))

/-- R19, R25, R34: every raw value is in `0 .. 2^SAMPLE_BITS - 1`. -/
abbrev SamplesOk (s : State) : Prop :=
  ∀ a : Axis, s.joy.get a < 2 ^ s.cfg.sampleBits ∧ s.sample.get a < 2 ^ s.cfg.sampleBits ∧
    s.adcIn.get a < 2 ^ s.cfg.sampleBits

/-- R29: `timer_div` in 1 .. 8, `timer_cnt` in 0 .. 7. -/
abbrev TimerOk (s : State) : Prop := 1 ≤ s.timerDiv ∧ s.timerDiv ≤ 8 ∧ s.timerCnt ≤ 7

/-- R14: `blink_cnt` in `0 .. BLINK_THRESHOLD - 1`. -/
abbrev BlinkOk (s : State) : Prop := s.blinkCnt < s.cfg.blinkThreshold

/-- R31: the frame buffer is in its canonical form and lists only cells of the buffer. -/
abbrev BufferOk (s : State) : Prop := s.fb.wf (cellCount s.cfg) = true

/-- R22, R104: `key` is the "no press" sentinel or what some key of the keypad yields. -/
abbrev KeyOk (s : State) : Prop := s.key = keyNone ∨ ∃ (r : Fin 4) (c : Fin 3), s.key = keyFound r c

/-- R24, R212: each loop index is 0 outside its loop and in range inside it. -/
abbrev IndicesOk (s : State) : Prop :=
  (s.seq.phase ≠ .p1 → s.axisI = .x) ∧
  (s.seq.phase ≠ .p2 → s.colI = 0) ∧
  (s.seq ≠ .p2 .rows → s.rowI = 0) ∧
  (s.seq ≠ .p2 .rows → s.seq ≠ .p2 .release → s.scanMask = 0#4 ∧ s.scanHit = none) ∧
  (s.seq.phase ≠ .p6 → s.pairI = 0) ∧ s.pairI < s.cfg.npairs ∧
  (s.seq ≠ .p6 .setBus → s.seq ≠ .p6 .pulse → s.seq ≠ .p6 .clearBus → s.colmI = 0) ∧ s.colmI < s.cfg.width

/-- R51, R94, R97: the mailbox of an axis. While P1 holds the axis's sample (after its flag was seen), the axis is idle;
at every other moment a sample is waiting exactly when no conversion is in flight. -/
abbrev MailboxOk (s : State) : Prop :=
  ∀ a : Axis,
    if a = s.axisI ∧ s.seq = .p1 .clear then s.fresh.get a = true ∧ s.conv.get a = .idle
    else if a = s.axisI ∧ (s.seq = .p1 .read ∨ s.seq = .p1 .start) then s.fresh.get a = false ∧ s.conv.get a = .idle
    else (s.fresh.get a = true ↔ s.conv.get a = .idle)

/-- The positions of the sweep at which a column is driven. -/
abbrev columnDriven (s : State) : Prop := s.seq = .p2 .sense ∨ s.seq = .p2 .rows ∨ s.seq = .p2 .release

/-- R107: inside the sweep the column `col_i` alone is driven, from its drive to its release; otherwise none is. -/
abbrev ColumnsOk (s : State) : Prop := ∀ c : Fin 3, s.colDrive[c] = decide (columnDriven s ∧ c = s.colI)

/-- The positions of the pass between `set_color_bus` and `clear_color_bus`. -/
abbrev busHeld (s : State) : Prop := s.seq = .p6 .pulse ∨ s.seq = .p6 .clearBus

/-- R206, R207, R208: the clock rests at 0, the bus holds the current column's two colours inside the column body and is
zero outside it, and the row address is in range. -/
abbrev BusOk (s : State) : Prop :=
  s.clk = false ∧ s.rowAddr < s.cfg.npairs ∧
  (¬ busHeld s → s.busUpper = .black ∧ s.busLower = .black) ∧
  (busHeld s → s.busUpper = s.fb.read (cellNumber s.cfg s.colmI s.pairI) ∧
    s.busLower = s.fb.read (cellNumber s.cfg s.colmI (lowerRow s.cfg s.pairI)))

/-- The invariant of the machine: everything the rules say of every moment of a run. -/
structure Inv (s : State) : Prop where
  cursor : CursorOk s
  selection : SelOk s
  accumulators : AccumulatorsOk s
  samples : SamplesOk s
  timer : TimerOk s
  blink : BlinkOk s
  buffer : BufferOk s
  key : KeyOk s
  indices : IndicesOk s
  mailbox : MailboxOk s
  columns : ColumnsOk s
  bus : BusOk s

/-- R213: what may stand next to a clock pulse: before it a `BUS`, after it a `CLR`. The first argument is the newer. -/
def clockNeighbours (newer older : Event) : Bool :=
  (match newer, older with
    | .clk, .bus _ _ => true
    | .clk, _ => false
    | _, _ => true) &&
  (match older, newer with
    | .clk, .clr => true
    | .clk, _ => false
    | _, _ => true)

/-- R213 over a whole trace, newest first; its oldest event is no clock pulse. -/
def clockDiscipline : List Event → Bool
  | [] => true
  | [e] => e != .clk
  | newer :: older :: rest => clockNeighbours newer older && clockDiscipline (older :: rest)

/-- R207, R213: the trace so far keeps the clock's discipline, and the sequencer's position says what the newest event is
inside a column's body. -/
structure TraceOk (s : State) : Prop where
  discipline : clockDiscipline s.trace = true
  pulseNext : s.seq = .p6 .pulse → s.trace.head? = some (.bus s.busUpper s.busLower)
  clearNext : s.seq = .p6 .clearBus ↔ s.trace.head? = some .clk

/-- The colour of a cell of the buffer. -/
def cellAt (s : State) (x y : Nat) : Color := s.fb.read (cellNumber s.cfg x y)

/-- R200 step 2 for one column of a pair. -/
def columnEvents (s : State) (p c : Nat) : List Event :=
  [.bus (cellAt s c p) (cellAt s c (p + s.cfg.npairs)), .clk, .clr]

/-- R200 steps 1 to 3 for one pair. -/
def pairEvents (s : State) (p : Nat) : List Event :=
  [.outputEnable false, .latch false] ++ (List.range s.cfg.width).flatMap (columnEvents s p) ++
    [.latch true, .outputEnable s.cfg.oeAfterLatch, .addr (addrAfter s.cfg p)]

/-- R200: the events of one refresh pass, in order. -/
def refreshEvents (s : State) : List Event := (List.range s.cfg.npairs).flatMap (pairEvents s)

/-- R201: `NPAIRS * (3*W + 5)`. -/
def refreshLength (cfg : Config) : Nat := cfg.npairs * (3 * cfg.width + 5)

/-- The colours carried by the `BUS` events of a list, in order. -/
def busColors (es : List Event) : List (Color × Color) :=
  es.filterMap fun e => match e with
    | .bus u l => some (u, l)
    | _ => none

/-- R103: the held key with the smallest column, and among those the smallest row. -/
def firstKey (keys : List (Fin 4 × Fin 3)) : Option (Fin 4 × Fin 3) :=
  ((List.finRange 3).flatMap fun c => (List.finRange 4).map fun r => (r, c)).find? fun k => keys.contains k

/-- R100, R103, R105: the result of a sweep during which the keys `keys` are held. -/
def scanResult (keys : List (Fin 4 × Fin 3)) : KeyReg :=
  match firstKey keys with
  | some (r, c) => keyFound r c
  | none => keyNone

/-- Some key of column `c` is held. -/
def columnHeld (keys : List (Fin 4 × Fin 3)) (c : Fin 3) : Bool := (List.finRange 4).any fun r => keys.contains (r, c)

/-- R102: the row mask read while column `c` alone is driven: bit `r` is set when the key `(r, c)` is held. -/
def columnMask (keys : List (Fin 4 × Fin 3)) (c : Fin 3) : BitVec 4 :=
  BitVec.ofBool (keys.contains (3, c)) ++ BitVec.ofBool (keys.contains (2, c)) ++ BitVec.ofBool (keys.contains (1, c)) ++
    BitVec.ofBool (keys.contains (0, c))

/-- R100, R107: the columns a sweep visits, ascending, ending with the first one that yields a press. -/
def sweepColumns (keys : List (Fin 4 × Fin 3)) : List (Fin 3) :=
  if columnHeld keys 0 then [0] else if columnHeld keys 1 then [0, 1] else [0, 1, 2]

/-- R107: the events of a sweep: drive, read and release for each column visited. -/
def sweepEvents (keys : List (Fin 4 × Fin 3)) : List Event :=
  (sweepColumns keys).flatMap fun c => [.columnOn c, .rows (columnMask keys c), .columnOff c]

/-- R50: the main sequencer takes the next atomic step. -/
abbrev mainNext (s : State) : Prop := s.moves.head?.getD .main = .main

/-- R24: the order of the phases. -/
def Phase.after : Phase → Phase
  | .p1 => .p2
  | .p2 => .p3
  | .p3 => .p4
  | .p4 => .p5
  | .p5 => .p6
  | .p6 => .p1

/-- R181: `fb` is the buffer of `s` with the cells of `cells` that are in bounds in colour `c` and every other cell, at every
cell number, as it was. -/
def drawnOver (s : State) (cells : List Point) (c : Color) (fb : Memory) : Prop :=
  fb.wf (cellCount s.cfg) = true ∧
  (∀ p ∈ cells, inBounds s.cfg p.x p.y → fb.read (cellNumber s.cfg p.x p.y) = c) ∧
  ∀ a : Nat, (∀ p ∈ cells, inBounds s.cfg p.x p.y → cellNumber s.cfg p.x p.y ≠ a) → fb.read a = s.fb.read a

/-- R46, R47: `fb` holds the colour `f x y` in every cell of the buffer. -/
def holdsEverywhere (cfg : Config) (f : Nat → Nat → Color) (fb : Memory) : Prop :=
  fb.wf (cellCount cfg) = true ∧ ∀ x y : Nat, x < cfg.width → y < cfg.height → fb.read (y * cfg.width + x) = f x y

/-- R183: the cells of a rectangle's perimeter. -/
abbrev onPerimeter (p q c : Point) : Prop :=
  (min p.x q.x ≤ c.x ∧ c.x ≤ max p.x q.x ∧ min p.y q.y ≤ c.y ∧ c.y ≤ max p.y q.y) ∧
  (c.x = min p.x q.x ∨ c.x = max p.x q.x ∨ c.y = min p.y q.y ∨ c.y = max p.y q.y)

/-- A run from reset with these parameters, under this schedule of the environment. -/
def started (cfg : Config) (moves : List Move) : State := { State.resetWith cfg with moves := moves }

end Sys2Proof.Machine
end

