-- ==== Sys2Proof/Certificates/Slice0/Obligations.lean ====
section
/-! DEFINITION. The statements for the provers, from the numbered rules of spec/. A clause that rests on a decision `D<n>` or
on an inference of the spec says so; `log <n>` is a row of the assumption log. -/

open Sys2Proof Sys2Proof.Machine

/-! ### Encodings -/

/-- R62, R63, R104: the twelve keys: linear index, character (ASCII, the spec's general knowledge G1), value, K5 word and
instruction; and the word of "no press". The bit positions are the spec's decision D13. -/
def Obligations.KeyCodeMap : Prop :=
  (∀ r c idx ch v w i, (r, c, idx, ch, v, w, i) ∈
      ([(0, 0, 0, 0x31#8, 0x1#4, 0x11#5, .sel1), (0, 1, 1, 0x32#8, 0x2#4, 0x12#5, .sel2),
        (0, 2, 2, 0x33#8, 0x3#4, 0x13#5, .sel3), (1, 0, 3, 0x34#8, 0x4#4, 0x14#5, .sel4),
        (1, 1, 4, 0x35#8, 0x5#4, 0x15#5, .sel5), (1, 2, 5, 0x36#8, 0x6#4, 0x16#5, .sel6),
        (2, 0, 6, 0x37#8, 0x7#4, 0x17#5, .sel7), (2, 1, 7, 0x38#8, 0x8#4, 0x18#5, .sel8),
        (2, 2, 8, 0x39#8, 0x9#4, 0x19#5, .modeSpeed), (3, 0, 9, 0x2A#8, 0xA#4, 0x1A#5, .modeColor),
        (3, 1, 10, 0x30#8, 0x0#4, 0x10#5, .modeFill), (3, 2, 11, 0x23#8, 0xB#4, 0x1B#5, .modeDraw)] :
        List (Fin 4 × Fin 3 × Fin 12 × BitVec 8 × BitVec 4 × BitVec 5 × Instr)) →
    keyFound r c = ⟨true, v, some ⟨r, c, idx, ch⟩⟩ ∧ makeKeyWord true v = w ∧ decode (.k5 w) = i) ∧
  keyNone = ⟨false, 0#4, none⟩ ∧ makeKeyWord false 0#4 = 0x00#5 ∧ decode (.k5 0x00#5) = .nokey 0#4

/-- R66, R68, R69: words written out from the encoding tables, one or more of each family. -/
def Obligations.TableWordsDecode : Prop :=
  decode (.k5 0b11010#5) = .modeColor ∧ decode (.k5 0b11000#5) = .sel8 ∧ decode (.k5 0b00000#5) = .nokey 0#4 ∧
  decode (.k5 0b11110#5) = .k5Reserved 0xE#4 ∧
  decode (.m6 0b000011#6) = .colorSet3 ∧ decode (.m6 0b001111#6) = .colorNone ∧ decode (.m6 0b000000#6) = .colorUnreachable0 ∧
  decode (.m6 0b011000#6) = .fillDo8 ∧ decode (.m6 0b011111#6) = .fillNone ∧ decode (.m6 0b011001#6) = .fillUnreachable9 ∧
  decode (.m6 0b100011#6) = .drawLine ∧ decode (.m6 0b100111#6) = .drawPat7 ∧ decode (.m6 0b101000#6) = .drawFill ∧
  decode (.m6 0b101110#6) = .drawUnreachableE ∧ decode (.m6 0b101111#6) = .drawNone ∧
  decode (.m6 0b110001#6) = .speedSet1 ∧ decode (.m6 0b111111#6) = .speedNone ∧ decode (.m6 0b111100#6) = .speedUnreachableC

/-- R60 to R69: decoding the encoding of a well-formed instruction gives it back, with every operand. -/
def Obligations.DecodeOfEncode : Prop := ∀ i : Instr, i.wf = true → decode (encode i) = i

/-- R60 to R69: every word of either format decodes to a well-formed instruction, and encoding that instruction gives the word
back. For the K5 words 0x00 to 0x0F, which R61 and R64 make one `NOKEY`, and the reserved words 0x1C to 0x1F, the second half
rests on the model's choice that `nokey` and `k5Reserved` carry their ignored nibble (log 16). -/
def Obligations.EncodeOfDecode : Prop := ∀ w : CodeWord, (decode w).wf = true ∧ encode (decode w) = w

/-! ### A step runs the decoded instruction -/

/-- R84, R85, R81: in P3 the step runs the key instruction decoded from the register `key` and goes to P4; in P4 it runs the
mode operation decoded from `mode` and `sel` and goes to P5. -/
def Obligations.StepRunsDecodedInstruction : Prop :=
  ∀ (s : State) (i : Instr), mainNext s → i.wf = true →
    (s.seq = .p3 → decode (.k5 (makeKeyWord s.key.pressed s.key.v)) = i →
      step s = thenPhase .p4 (exec i { s with moves := s.moves.tail })) ∧
    (s.seq = .p4 → decode (.m6 (makeModeWord s.mode.bits s.sel)) = i →
      step s = thenPhase (.p5 .test) (exec i { s with moves := s.moves.tail }))

/-- R220 (the spec's decision D36): every instruction has exactly one successor from every state. R110, R130: it writes at most
`mode`, `sel`, `draw_color`, `btn_flag`, the accumulators, `timer_div` and the frame buffer; every other register, flag, port
and shared cell is unchanged. -/
def Obligations.EveryInstructionCompletes : Prop :=
  ∀ (i : Instr) (s : State), ∃ t : State, exec i s = .next t ∧
    t = { s with
      mode := t.mode, sel := t.sel, drawColor := t.drawColor, btnFlag := t.btnFlag, accLine := t.accLine,
      accRect := t.accRect, accTri := t.accTri, timerDiv := t.timerDiv, fb := t.fb }

/-! ### The key instructions -/

/-- R111: `NOKEY` is every key word with `pressed = 0`, and writes nothing. -/
def Obligations.NokeyWritesNothing : Prop :=
  ∀ (v : BitVec 4) (s : State), decode (.k5 (makeKeyWord false v)) = .nokey v ∧ exec (.nokey v) s = .next s

/-- R112: key `*`. -/
def Obligations.ModeColorKey : Prop :=
  decode (.k5 0x1A#5) = .modeColor ∧ ∀ s : State, exec .modeColor s = .next { s with mode := .color, sel := 0b1111#4 }

/-- R113: key `0`. -/
def Obligations.ModeFillKey : Prop :=
  decode (.k5 0x10#5) = .modeFill ∧ ∀ s : State, exec .modeFill s = .next { s with mode := .fill, sel := 0b1111#4 }

/-- R114: key `#`; in every mode, Draw included. -/
def Obligations.ModeDrawKey : Prop :=
  decode (.k5 0x1B#5) = .modeDraw ∧ ∀ s : State, exec .modeDraw s = .next { s with
    mode := .draw, sel := 0b1111#4, accLine := ⟨.unset, .unset⟩, accRect := ⟨.unset, .unset⟩,
    accTri := ⟨.unset, .unset, .unset⟩ }

/-- R115: key `9`. -/
def Obligations.ModeSpeedKey : Prop :=
  decode (.k5 0x19#5) = .modeSpeed ∧ ∀ s : State, exec .modeSpeed s = .next { s with mode := .speed, sel := 0b1111#4 }

/-- R116, and R118 for what activation resets (the spec's decision D19): `SEL n` writes `sel`; in Draw mode, with `n` different
from the old `sel`, the accumulator of a newly selected shape tool is reset and no other. -/
def Obligations.SelectionKeys : Prop :=
  ∀ (i : Instr) (n : BitVec 4), (i, n) ∈
      [(Instr.sel1, 1#4), (.sel2, 2#4), (.sel3, 3#4), (.sel4, 4#4), (.sel5, 5#4), (.sel6, 6#4), (.sel7, 7#4), (.sel8, 8#4)] →
    decode (.k5 (makeKeyWord true n)) = i ∧
    ∀ s : State, exec i s = .next { s with
      sel := n
      accLine := if s.mode = .draw ∧ n ≠ s.sel ∧ n = 3#4 then ⟨.unset, .unset⟩ else s.accLine
      accRect := if s.mode = .draw ∧ n ≠ s.sel ∧ n = 4#4 then ⟨.unset, .unset⟩ else s.accRect
      accTri := if s.mode = .draw ∧ n ≠ s.sel ∧ n = 5#4 then ⟨.unset, .unset, .unset⟩ else s.accTri }

/-- R117, R68 (the spec's decision D14): a reserved key value does nothing. -/
def Obligations.ReservedKeysWriteNothing : Prop :=
  ∀ v : BitVec 4, 0xC#4 ≤ v →
    decode (.k5 (makeKeyWord true v)) = .k5Reserved v ∧ ∀ s : State, exec (.k5Reserved v) s = .next s

/-- R119 (the spec's inference): the next mode and selection of P3, for every key word and every state. -/
def Obligations.ModeTable : Prop :=
  ∀ s : State, mainNext s → s.seq = .p3 → ∃ t : State, step s = .next t ∧ t.seq = .p4 ∧
    (t.mode, t.sel) =
      if s.key.pressed = false then (s.mode, s.sel)
      else if s.key.v = 0xA#4 then (.color, 0b1111#4)
      else if s.key.v = 0x0#4 then (.fill, 0b1111#4)
      else if s.key.v = 0xB#4 then (.draw, 0b1111#4)
      else if s.key.v = 0x9#4 then (.speed, 0b1111#4)
      else if s.key.v.toNat ≤ 8 then (s.mode, s.key.v)
      else (s.mode, s.sel)

/-- R120 (the spec's inference): a key instruction executed again at once changes nothing more. -/
def Obligations.RepeatedKeyChangesNothing : Prop :=
  ∀ (w : KeyWord) (s t : State), exec (decode (.k5 w)) s = .next t → exec (decode (.k5 w)) t = .next t

/-! ### The mode operations of Color, Fill and Speed -/

/-- R131: `COLOR_SET n` sets `draw_color` to `PALETTE[n - 1]`; R130, R148: the button flag is consumed, so a press made in
Color mode is discarded (the spec's decision D20); nothing else is written. -/
def Obligations.ColorSetWritesDrawColor : Prop :=
  ∀ (i : Instr) (n : BitVec 4) (k : Fin 8), (i, n, k) ∈
      [(Instr.colorSet1, 1#4, 0), (.colorSet2, 2#4, 1), (.colorSet3, 3#4, 2), (.colorSet4, 4#4, 3),
       (.colorSet5, 5#4, 4), (.colorSet6, 6#4, 5), (.colorSet7, 7#4, 6), (.colorSet8, 8#4, 7)] →
    decode (.m6 (makeModeWord 0b00#2 n)) = i ∧
    ∀ s : State, exec i s = .next { s with drawColor := s.cfg.palette[k], btnFlag := false }

/-- R135: `SPEED_SET n` sets `timer_div` to `SPEED_DIV(n)`, whatever that map is (R6, D23), and does not touch `timer_cnt` or
`movement_due`; R130, R148: the button flag is consumed (the spec's decision D20). -/
def Obligations.SpeedSetWritesDivisor : Prop :=
  ∀ (i : Instr) (n : BitVec 4) (k : Fin 8), (i, n, k) ∈
      [(Instr.speedSet1, 1#4, 0), (.speedSet2, 2#4, 1), (.speedSet3, 3#4, 2), (.speedSet4, 4#4, 3),
       (.speedSet5, 5#4, 4), (.speedSet6, 6#4, 5), (.speedSet7, 7#4, 6), (.speedSet8, 8#4, 7)] →
    decode (.m6 (makeModeWord 0b11#2 n)) = i ∧
    ∀ s : State, exec i s = .next { s with timerDiv := s.cfg.speedDiv[k], btnFlag := false }

/-- R132, R134, R136 to R139: the four `..._NONE` words and the tools free and trace have no effect of their own in P4; R130,
R148: they consume the button flag, so the press is discarded (the spec's decision D20). -/
def Obligations.IdleWordsConsumeTheButton : Prop :=
  ∀ (i : Instr) (w : ModeWord), (i, w) ∈
      [(Instr.colorNone, 0x0F#6), (.fillNone, 0x1F#6), (.drawNone, 0x2F#6), (.speedNone, 0x3F#6), (.drawFree, 0x21#6),
       (.drawTrace, 0x22#6)] →
    decode (.m6 w) = i ∧ ∀ s : State, exec i s = .next { s with btnFlag := false }

/-- R69 (the spec's inference): the 28 unreachable words act as the `..._NONE` word of their mode; R130, R148: they consume the
button flag (the spec's decision D20). -/
def Obligations.UnreachableWordsConsumeTheButton : Prop :=
  ∀ i ∈ [Instr.colorUnreachable0, .colorUnreachable9, .colorUnreachableA, .colorUnreachableB, .colorUnreachableC,
      .colorUnreachableD, .colorUnreachableE, .fillUnreachable0, .fillUnreachable9, .fillUnreachableA, .fillUnreachableB,
      .fillUnreachableC, .fillUnreachableD, .fillUnreachableE, .drawUnreachable0, .drawUnreachable9, .drawUnreachableA,
      .drawUnreachableB, .drawUnreachableC, .drawUnreachableD, .drawUnreachableE, .speedUnreachable0, .speedUnreachable9,
      .speedUnreachableA, .speedUnreachableB, .speedUnreachableC, .speedUnreachableD, .speedUnreachableE],
    ∀ s : State, exec i s = .next { s with btnFlag := false }

/-- R133: `FILL_DO n` leaves `PALETTE[n - 1]` in every cell and `sel = NONE`; R130, R148: the button flag is consumed, so a press
made in Fill mode is discarded (the spec's decision D20); nothing else is written. -/
def Obligations.FillDoFillsOnce : Prop :=
  ∀ (i : Instr) (n : BitVec 4) (k : Fin 8), (i, n, k) ∈
      [(Instr.fillDo1, 1#4, 0), (.fillDo2, 2#4, 1), (.fillDo3, 3#4, 2), (.fillDo4, 4#4, 3),
       (.fillDo5, 5#4, 4), (.fillDo6, 6#4, 5), (.fillDo7, 7#4, 6), (.fillDo8, 8#4, 7)] →
    decode (.m6 (makeModeWord 0b01#2 n)) = i ∧
    ∀ s : State, ∃ fb : Memory, exec i s = .next { s with fb := fb, sel := 0b1111#4, btnFlag := false } ∧
      holdsEverywhere s.cfg (fun _ _ => s.cfg.palette[k]) fb

/-- R46: `fill(c)` writes every cell and nothing but the buffer, and filling twice is filling once. -/
def Obligations.FillIsIdempotent : Prop :=
  ∀ (c : Color) (s : State),
    fill c s = { s with fb := (fill c s).fb } ∧ holdsEverywhere s.cfg (fun _ _ => c) (fill c s).fb ∧
    fill c (fill c s) = fill c s

/-! ### The mode operations of Draw -/

/-- R143 (the colour is the spec's decision D22): tool 8 leaves `draw_color` in every cell and keeps `sel`; R130, R148: the
button flag is consumed (D20). -/
def Obligations.DrawFillFillsWithDrawColor : Prop :=
  decode (.m6 0x28#6) = .drawFill ∧
  ∀ s : State, ∃ fb : Memory, exec .drawFill s = .next { s with fb := fb, btnFlag := false } ∧
    holdsEverywhere s.cfg (fun _ _ => s.drawColor) fb

/-- R144, R149, R47 (the spec's decision D22): tools 6 and 7 paint the configured pattern into every cell and keep `sel`. R8: a
checkerboard holds its colour where `(x + y) mod 2` is its parity. R130, R148: the button flag is consumed (D20). -/
def Obligations.PatternToolsPaint : Prop :=
  decode (.m6 0x26#6) = .drawPat6 ∧ decode (.m6 0x27#6) = .drawPat7 ∧
  ∀ s : State,
    (∃ fb : Memory, exec .drawPat6 s = .next { s with fb := fb, btnFlag := false } ∧
      holdsEverywhere s.cfg (s.cfg.pattern6.colorAt s.cfg.width) fb) ∧
    (∃ fb : Memory, exec .drawPat7 s = .next { s with fb := fb, btnFlag := false } ∧
      holdsEverywhere s.cfg (s.cfg.pattern7.colorAt s.cfg.width) fb)

/-- R140, R147, R130, R148: tool 3. Without a button press nothing changes; the first press is captured; the second draws the line from
the first point to the cursor in `draw_color` and resets the accumulator. Which cells the line has is R184, the spec's general
knowledge (G4, log 19). -/
def Obligations.LineTool : Prop :=
  ∀ s : State, pointInBounds s.cfg s.cur → BufferOk s → s.accLine.slot1 = .unset →
    (s.btnFlag = false → exec .drawLine s = .next s) ∧
    (s.btnFlag = true → s.accLine.slot0 = .unset →
      exec .drawLine s = .next { s with accLine := ⟨s.cur, .unset⟩, btnFlag := false }) ∧
    (s.btnFlag = true → s.accLine.slot0 ≠ .unset → ∃ fb : Memory,
      exec .drawLine s = .next { s with fb := fb, accLine := ⟨.unset, .unset⟩, btnFlag := false } ∧
      drawnOver s (lineCells s.accLine.slot0 s.cur) s.drawColor fb)

/-- R141, R147, R182, R130, R148: tool 4. As tool 3, with the cells `render_rect` visits for the two points as opposite corners;
that these are the perimeter is R183, the spec's inference (RectangleCellsAreThePerimeter). -/
def Obligations.RectangleTool : Prop :=
  ∀ s : State, pointInBounds s.cfg s.cur → BufferOk s → s.accRect.slot1 = .unset →
    (s.btnFlag = false → exec .drawRect s = .next s) ∧
    (s.btnFlag = true → s.accRect.slot0 = .unset →
      exec .drawRect s = .next { s with accRect := ⟨s.cur, .unset⟩, btnFlag := false }) ∧
    (s.btnFlag = true → s.accRect.slot0 ≠ .unset → ∃ fb : Memory,
      exec .drawRect s = .next { s with fb := fb, accRect := ⟨.unset, .unset⟩, btnFlag := false } ∧
      drawnOver s (rectCells s.accRect.slot0 s.cur) s.drawColor fb)

/-- R142, R147, R187, R130, R148: tool 5. Two presses are captured; the third draws the three edges, each as tool 3 draws a line (the
order and direction of the edges are the spec's decision D27, a line's cells its general knowledge G4, log 19). -/
def Obligations.TriangleTool : Prop :=
  ∀ s : State, pointInBounds s.cfg s.cur → BufferOk s → s.accTri.slot2 = .unset →
    (s.btnFlag = false → exec .drawTri s = .next s) ∧
    (s.btnFlag = true → s.accTri.slot0 = .unset →
      exec .drawTri s = .next { s with accTri := ⟨s.cur, s.accTri.slot1, .unset⟩, btnFlag := false }) ∧
    (s.btnFlag = true → s.accTri.slot0 ≠ .unset → s.accTri.slot1 = .unset →
      exec .drawTri s = .next { s with accTri := ⟨s.accTri.slot0, s.cur, .unset⟩, btnFlag := false }) ∧
    (s.btnFlag = true → s.accTri.slot0 ≠ .unset → s.accTri.slot1 ≠ .unset → ∃ fb : Memory,
      exec .drawTri s = .next { s with fb := fb, accTri := ⟨.unset, .unset, .unset⟩, btnFlag := false } ∧
      drawnOver s (lineCells s.accTri.slot0 s.accTri.slot1 ++ lineCells s.accTri.slot1 s.cur ++
        lineCells s.cur s.accTri.slot0) s.drawColor fb)

/-- R146: `append` fills the first `UNSET` slot; with none it does nothing. -/
def Obligations.AppendFillsTheFirstUnsetSlot : Prop :=
  (∀ (a : Acc2) (p : Point), a.append p =
    if a.slot0 = .unset then ⟨p, a.slot1⟩ else if a.slot1 = .unset then ⟨a.slot0, p⟩ else a) ∧
  (∀ (a : Acc3) (p : Point), a.append p =
    if a.slot0 = .unset then ⟨p, a.slot1, a.slot2⟩ else if a.slot1 = .unset then ⟨a.slot0, p, a.slot2⟩
    else if a.slot2 = .unset then ⟨a.slot0, a.slot1, p⟩ else a)

/-- R44: `draw` in bounds writes that one cell; out of bounds it changes nothing. -/
def Obligations.DrawIsBoundsChecked : Prop :=
  ∀ (s : State) (x y : Int) (c : Color), BufferOk s →
    (inBounds s.cfg x y → ∃ fb : Memory, draw x y c s = { s with fb := fb } ∧ fb.wf (cellCount s.cfg) = true ∧
      fb.read (cellNumber s.cfg x y) = c ∧ ∀ a : Nat, a ≠ cellNumber s.cfg x y → fb.read a = s.fb.read a) ∧
    (¬ inBounds s.cfg x y → draw x y c s = s)

/-! ### Shapes -/

/-- R183 (the spec's inference): a rectangle's cells are the perimeter of the bounding box of its corners, in any order. -/
def Obligations.RectangleCellsAreThePerimeter : Prop := ∀ p q c : Point, c ∈ rectCells p q ↔ onPerimeter p q c

/-- R185 (a), (b) (the spec's inference): a line starts at the first point and ends at the second, and has one cell, each once,
for each step along the longer axis. -/
def Obligations.LineEndsAndLength : Prop :=
  ∀ p q : Point, (lineCells p q).head? = some p ∧ (lineCells p q).getLast? = some q ∧
    (lineCells p q).length = max (q.x - p.x).natAbs (q.y - p.y).natAbs + 1 ∧ (lineCells p q).Nodup

/-- R185 (c), (d) (the spec's inference): consecutive cells differ by at most 1 on each axis and by exactly 1 on the longer
axis, and every cell is in the bounding box. -/
def Obligations.LineIsConnectedInItsBox : Prop :=
  ∀ p q : Point,
    (lineCells p q).IsChain (fun a b => (b.x - a.x).natAbs ≤ 1 ∧ (b.y - a.y).natAbs ≤ 1 ∧
      ((q.y - p.y).natAbs ≤ (q.x - p.x).natAbs → (b.x - a.x).natAbs = 1) ∧
      ((q.x - p.x).natAbs ≤ (q.y - p.y).natAbs → (b.y - a.y).natAbs = 1)) ∧
    ∀ c ∈ lineCells p q, min p.x q.x ≤ c.x ∧ c.x ≤ max p.x q.x ∧ min p.y q.y ≤ c.y ∧ c.y ≤ max p.y q.y

/-- R185 (e), (f) (the spec's inference): horizontal, vertical and 45-degree lines are exact. -/
def Obligations.StraightLinesAreExact : Prop :=
  ∀ p q : Point, q.x = p.x ∨ q.y = p.y ∨ (q.x - p.x).natAbs = (q.y - p.y).natAbs →
    lineCells p q = (List.range (max (q.x - p.x).natAbs (q.y - p.y).natAbs + 1)).map fun k =>
      ⟨p.x + k * (q.x - p.x).sign, p.y + k * (q.y - p.y).sign⟩

/-- R184, R186, R187: worked examples of lines, and the 14 distinct cells of the triangle. Their middle cells rest on the steps
of R184, which the spec takes from general knowledge (G4, D27; log 19, PRESUMED). -/
def Obligations.LineExamples : Prop :=
  lineCells ⟨0, 0⟩ ⟨5, 2⟩ = [⟨0, 0⟩, ⟨1, 0⟩, ⟨2, 1⟩, ⟨3, 1⟩, ⟨4, 2⟩, ⟨5, 2⟩] ∧
  lineCells ⟨0, 0⟩ ⟨4, 2⟩ = [⟨0, 0⟩, ⟨1, 1⟩, ⟨2, 1⟩, ⟨3, 2⟩, ⟨4, 2⟩] ∧
  lineCells ⟨4, 2⟩ ⟨0, 0⟩ = [⟨4, 2⟩, ⟨3, 1⟩, ⟨2, 1⟩, ⟨1, 0⟩, ⟨0, 0⟩] ∧
  lineCells ⟨0, 0⟩ ⟨2, 5⟩ = [⟨0, 0⟩, ⟨0, 1⟩, ⟨1, 2⟩, ⟨1, 3⟩, ⟨2, 4⟩, ⟨2, 5⟩] ∧
  lineCells ⟨6, 1⟩ ⟨0, 4⟩ = [⟨6, 1⟩, ⟨5, 2⟩, ⟨4, 2⟩, ⟨3, 3⟩, ⟨2, 3⟩, ⟨1, 4⟩, ⟨0, 4⟩] ∧
  triCells ⟨1, 1⟩ ⟨6, 3⟩ ⟨2, 6⟩ =
    [⟨1, 1⟩, ⟨2, 1⟩, ⟨3, 2⟩, ⟨4, 2⟩, ⟨5, 3⟩, ⟨6, 3⟩, ⟨6, 3⟩, ⟨5, 4⟩, ⟨4, 5⟩, ⟨3, 5⟩, ⟨2, 6⟩,
     ⟨2, 6⟩, ⟨2, 5⟩, ⟨2, 4⟩, ⟨1, 3⟩, ⟨1, 2⟩, ⟨1, 1⟩] ∧
  (triCells ⟨1, 1⟩ ⟨6, 3⟩ ⟨2, 6⟩).dedup.length = 14

/-! ### The movement tick -/

/-- R161, R162: every tick completes, records the previous position, moves each axis by at most one cell with strict
comparisons and a clamp, and stays in bounds; it writes only the cursor engine's registers, the button's two flags and the
frame buffer. -/
def Obligations.TickMovesTheCursor : Prop :=
  ∀ s : State, mainNext s → s.seq = .p5 .tick → pointInBounds s.cfg s.cur → ∃ t : State, step s = .next t ∧
    t.prev = s.cur ∧
    t.cur.x = (if s.joy.x > s.cfg.neutralX + s.cfg.threshold then min (s.cur.x + 1) ((s.cfg.width : Int) - 1)
      else if s.joy.x < s.cfg.neutralX - s.cfg.threshold then max (s.cur.x - 1) 0 else s.cur.x) ∧
    t.cur.y = (if s.joy.y > s.cfg.neutralY + s.cfg.threshold then min (s.cur.y + 1) ((s.cfg.height : Int) - 1)
      else if s.joy.y < s.cfg.neutralY - s.cfg.threshold then max (s.cur.y - 1) 0 else s.cur.y) ∧
    pointInBounds s.cfg t.cur ∧
    t = { s with
      moves := s.moves.tail, seq := .p6 .outputOff, cur := t.cur, prev := t.prev, prevColor := t.prevColor,
      blinkCnt := t.blinkCnt, blinkOn := t.blinkOn, btnPrev := t.btnPrev, btnFlag := t.btnFlag, fb := t.fb,
      trace := t.trace }

/-- R163, R167, R168 (R168 is the spec's decision D24): a tick that moves the cursor restores the vacated cell to
`prev_color`, draws the new cell under the trace tool, remembers the new cell's colour as it then is, and changes no other
cell, no blink state and no button state. -/
def Obligations.MovingTick : Prop :=
  ∀ s : State, mainNext s → s.seq = .p5 .tick → pointInBounds s.cfg s.cur → BufferOk s → (moveCursor s).cur ≠ s.cur →
    let old := cellNumber s.cfg s.cur.x s.cur.y
    let new := cellNumber s.cfg (moveCursor s).cur.x (moveCursor s).cur.y
    let occupant := if s.mode = .draw ∧ s.sel = 2#4 then s.drawColor else s.fb.read new
    ∃ fb : Memory, step s = .next { s with
        moves := s.moves.tail, seq := .p6 .outputOff, prev := s.cur, cur := (moveCursor s).cur, prevColor := occupant,
        fb := fb } ∧
      fb.wf (cellCount s.cfg) = true ∧ fb.read old = s.prevColor ∧ fb.read new = occupant ∧
      ∀ a : Nat, a ≠ old → a ≠ new → fb.read a = s.fb.read a

/-- R161, R163, R164: a tick that does not move the cursor and does not reach the threshold counts; under the trace tool it
draws the cursor's cell; nothing else changes. -/
def Obligations.StationaryTickCounts : Prop :=
  ∀ s : State, mainNext s → s.seq = .p5 .tick → pointInBounds s.cfg s.cur → BufferOk s → (moveCursor s).cur = s.cur →
    s.blinkCnt + 1 ≠ s.cfg.blinkThreshold →
    let cell := cellNumber s.cfg s.cur.x s.cur.y
    ∃ fb : Memory, step s = .next { s with
        moves := s.moves.tail, seq := .p6 .outputOff, prev := s.cur, blinkCnt := s.blinkCnt + 1, fb := fb } ∧
      fb.wf (cellCount s.cfg) = true ∧
      fb.read cell = (if s.mode = .draw ∧ s.sel = 2#4 then s.drawColor else s.fb.read cell) ∧
      ∀ a : Nat, a ≠ cell → fb.read a = s.fb.read a

/-- R164, R165, R166 (the blink flag is the spec's decision D24, `btn_prev` and the edge test its D21): a stationary tick that
reaches the threshold resets the counter, toggles the cursor's cell between `HIGHLIGHT` and `prev_color`, samples the button
and sets the flag on an edge. -/
def Obligations.StationaryTickToggles : Prop :=
  ∀ s : State, mainNext s → s.seq = .p5 .tick → pointInBounds s.cfg s.cur → BufferOk s → (moveCursor s).cur = s.cur →
    s.blinkCnt + 1 = s.cfg.blinkThreshold →
    let cell := cellNumber s.cfg s.cur.x s.cur.y
    ∃ fb : Memory, step s = .next { s with
        moves := s.moves.tail, seq := .p6 .outputOff, prev := s.cur, blinkCnt := 0, blinkOn := !s.blinkOn,
        btnFlag := s.btnFlag || (s.button && !s.btnPrev), btnPrev := s.button, trace := .btn s.button :: s.trace, fb := fb } ∧
      fb.wf (cellCount s.cfg) = true ∧ fb.read cell = (if s.blinkOn then s.prevColor else s.cfg.highlight) ∧
      ∀ a : Nat, a ≠ cell → fb.read a = s.fb.read a

/-- R170: with the reference constants, the neutral band and the step by one, and for any sequence of samples the range. -/
def Obligations.CursorRangeWithReferenceConstants : Prop :=
  (∀ k : Int, moveAxis 2051 2050 900 32 k = k) ∧
  (∀ k : Int, k < 31 → moveAxis 2960 2050 900 32 k = k + 1) ∧
  (∀ (samples : List Nat) (k : Int), 0 ≤ k → k ≤ 31 →
    0 ≤ samples.foldl (fun x j => moveAxis j 2050 900 32 x) k ∧ samples.foldl (fun x j => moveAxis j 2050 900 32 x) k ≤ 31) ∧
  (∀ (samples : List Nat) (k : Int), 0 ≤ k → k ≤ 15 →
    0 ≤ samples.foldl (fun y j => moveAxis j 1950 900 16 y) k ∧ samples.foldl (fun y j => moveAxis j 1950 900 16 y) k ≤ 15)

/-! ### The agents and the shared cells -/

/-- R92: the completion of a busy axis: the sample, the flag and the converter of that axis, and nothing else. On an idle axis
the agent is not enabled and has no step; that a schedule naming it all the same loses only that entry is the model's choice
(log 9). -/
def Obligations.CompletionStep : Prop :=
  ∀ (s : State) (rest : List Move),
    (s.moves = .env (.complete .x) :: rest →
      (s.conv.x = .busy → step s = .next { s with
        moves := rest, sample := ⟨s.adcIn.x, s.sample.y⟩, fresh := ⟨true, s.fresh.y⟩, conv := ⟨.idle, s.conv.y⟩ }) ∧
      (s.conv.x = .idle → step s = .next { s with moves := rest })) ∧
    (s.moves = .env (.complete .y) :: rest →
      (s.conv.y = .busy → step s = .next { s with
        moves := rest, sample := ⟨s.sample.x, s.adcIn.y⟩, fresh := ⟨s.fresh.x, true⟩, conv := ⟨s.conv.x, .idle⟩ }) ∧
      (s.conv.y = .idle → step s = .next { s with moves := rest }))

/-- R232 (the spec's decision D23): the timer's step on a base tick. -/
def Obligations.TimerStep : Prop :=
  ∀ (s : State) (rest : List Move), s.moves = .env .baseTick :: rest → step s = .next { s with
    moves := rest
    movementDue := s.movementDue || decide (s.timerCnt + 1 ≥ s.timerDiv)
    timerCnt := if s.timerCnt + 1 ≥ s.timerDiv then 0 else s.timerCnt + 1 }

/-- R227 (the spec's decision D33): two interrupts due at the same boundary give the same result in either order. -/
def Obligations.InterruptsCommute : Prop :=
  ∀ (s : State) (rest : List Move) (e f : EnvMove), e ∈ [EnvMove.complete .x, .complete .y, .baseTick] →
    f ∈ [EnvMove.complete .x, .complete .y, .baseTick] →
    Host.Core.run Sys2Proof.core 2 { s with moves := .env e :: .env f :: rest } =
      Host.Core.run Sys2Proof.core 2 { s with moves := .env f :: .env e :: rest }

/-- R37, R230 (R37 is the spec's inference): each agent's step completes and writes only its own cells; a change of an input
writes that input alone. -/
def Obligations.AgentsTouchOnlyTheirOwnCells : Prop :=
  ∀ (s : State) (e : EnvMove) (rest : List Move), s.moves = .env e :: rest → ∃ t : State, step s = .next t ∧
    t = match e with
      | .complete .x => { s with
          moves := rest, sample := ⟨t.sample.x, s.sample.y⟩, fresh := ⟨t.fresh.x, s.fresh.y⟩, conv := ⟨t.conv.x, s.conv.y⟩ }
      | .complete .y => { s with
          moves := rest, sample := ⟨s.sample.x, t.sample.y⟩, fresh := ⟨s.fresh.x, t.fresh.y⟩, conv := ⟨s.conv.x, t.conv.y⟩ }
      | .baseTick => { s with moves := rest, movementDue := t.movementDue, timerCnt := t.timerCnt }
      | .setAdc .x _ => { s with moves := rest, adcIn := ⟨t.adcIn.x, s.adcIn.y⟩ }
      | .setAdc .y _ => { s with moves := rest, adcIn := ⟨s.adcIn.x, t.adcIn.y⟩ }
      | .setButton b => { s with moves := rest, button := b }
      | .setKeys ks => { s with moves := rest, keysDown := ks }

/-- R86, R233 (clearing before the tick is the spec's decision D39): the gate reads the flag in one step; clear, it goes to P6;
set, it clears the flag in a second step and then runs the tick. -/
def Obligations.MovementGate : Prop :=
  ∀ s : State, mainNext s →
    (s.seq = .p5 .test → s.movementDue = false → step s = .next { s with moves := s.moves.tail, seq := .p6 .outputOff }) ∧
    (s.seq = .p5 .test → s.movementDue = true → step s = .next { s with moves := s.moves.tail, seq := .p5 .clear }) ∧
    (s.seq = .p5 .clear → step s = .next { s with moves := s.moves.tail, seq := .p5 .tick, movementDue := false })

/-- R94 (the order of the axes is the spec's decision D16): P1 run with no step of another agent between. An axis whose flag is
set is consumed and restarted; an axis whose flag is clear is skipped. -/
def Obligations.DrainPhase : Prop :=
  ∀ s : State, s.seq = .p1 .test → s.axisI = .x → s.moves = [] →
    Host.Core.run Sys2Proof.core ((if s.fresh.x then 4 else 1) + (if s.fresh.y then 4 else 1)) s = .next { s with
      seq := .p2 .drive
      axisI := .x
      fresh := ⟨false, false⟩
      joy := ⟨if s.fresh.x then s.sample.x else s.joy.x, if s.fresh.y then s.sample.y else s.joy.y⟩
      conv := ⟨if s.fresh.x then .busy else s.conv.x, if s.fresh.y then .busy else s.conv.y⟩
      trace := (if s.fresh.y then [.start .y] else []) ++ (if s.fresh.x then [.start .x] else []) ++ s.trace }

/-! ### The keypad -/

/-- R100, R103, R104, R105, R107 (directions are the spec's decision D17, the switch matrix its general knowledge G3; R103 and
R107 its inferences): a sweep with the held keys constant reports the held key of the smallest column and, in it, the smallest
row, or "no press", visits columns up to the first press, and leaves every column released. -/
def Obligations.KeypadSweep : Prop :=
  ∀ s : State, s.seq = .p2 .drive → s.colI = 0 → s.rowI = 0 → s.scanMask = 0#4 → s.scanHit = none →
    s.colDrive = #v[false, false, false] → s.moves = [] →
    Host.Core.run Sys2Proof.core (7 * (sweepColumns s.keysDown).length) s = .next { s with
      seq := .p3, key := scanResult s.keysDown, trace := (sweepEvents s.keysDown).reverse ++ s.trace }

/-! ### The refresh pass -/

/-- R200, R201, R203 to R211 (directions are the spec's decision D31; R201 and R211 its inferences): one pass, run with no step
of another agent between, emits exactly R200's events in R200's order, takes `NPAIRS * (3*W + 5)` steps, leaves the ports as R211
says and changes nothing else. For both values of both switches. -/
def Obligations.RefreshPass : Prop :=
  ∀ s : State, s.seq = .p6 .outputOff → s.pairI = 0 → s.colmI = 0 → s.moves = [] →
    Host.Core.run Sys2Proof.core (s.cfg.npairs * (3 * s.cfg.width + 5)) s = .next { s with
      seq := .p1 .test, trace := (refreshEvents s).reverse ++ s.trace, oe := s.cfg.oeAfterLatch, lat := true, clk := false,
      busUpper := .black, busLower := .black, rowAddr := addrAfter s.cfg (s.cfg.npairs - 1) }

/-- R201, R202, R213 (R201 and R202 are the spec's inferences, R213 its D1): a pass, run with no step of another agent between,
adds these numbers of events of each kind to the trace, and the `k`-th `BUS` it adds carries these two cells. -/
def Obligations.RefreshCountsAndColors : Prop :=
  ∀ s : State, s.seq = .p6 .outputOff → s.pairI = 0 → s.colmI = 0 → s.moves = [] →
    ∃ (t : State) (es : List Event),
      Host.Core.run Sys2Proof.core (s.cfg.npairs * (3 * s.cfg.width + 5)) s = .next t ∧ t.seq = .p1 .test ∧
      t.trace = es.reverse ++ s.trace ∧
      es.length = s.cfg.npairs * (3 * s.cfg.width + 5) ∧
      es.countP (fun e => e matches .outputEnable _) = 2 * s.cfg.npairs ∧
      es.countP (fun e => e matches .latch _) = 2 * s.cfg.npairs ∧
      es.countP (fun e => e matches .addr _) = s.cfg.npairs ∧
      es.count .clk = s.cfg.npairs * s.cfg.width ∧ es.count .clr = s.cfg.npairs * s.cfg.width ∧
      (busColors es).length = s.cfg.npairs * s.cfg.width ∧
      ∀ k < s.cfg.npairs * s.cfg.width, (busColors es)[k]? =
        some (cellAt s (k % s.cfg.width) (k / s.cfg.width), cellAt s (k % s.cfg.width) (k / s.cfg.width + s.cfg.npairs))

/-- R214: the worked trace, `W = 2`, `H = 4`, the default switches. -/
def Obligations.WorkedRefreshTrace : Prop :=
  ∀ cfg : Config, cfg.width = 2 → cfg.npairs = 2 → cfg.oeAfterLatch = false → cfg.addrAfter = .next →
    ∀ s : State, s = { State.resetWith cfg with
        seq := .p6 .outputOff,
        fb := [(0, ⟨true, false, false⟩), (3, ⟨false, true, false⟩), (4, ⟨false, false, true⟩), (7, ⟨true, true, true⟩)] } →
    ∃ t : State, Host.Core.run Sys2Proof.core 22 s = .next t ∧ t.seq = .p1 .test ∧
      t.trace.reverse =
        [.outputEnable false, .latch false,
         .bus ⟨true, false, false⟩ ⟨false, false, true⟩, .clk, .clr,
         .bus ⟨false, false, false⟩ ⟨false, false, false⟩, .clk, .clr,
         .latch true, .outputEnable false, .addr 1,
         .outputEnable false, .latch false,
         .bus ⟨false, false, false⟩ ⟨false, false, false⟩, .clk, .clr,
         .bus ⟨false, true, false⟩ ⟨true, true, true⟩, .clk, .clr,
         .latch true, .outputEnable false, .addr 0]

/-- R87: a step of P6 writes only the matrix ports, the position and the trace. -/
def Obligations.RefreshWritesOnlyPorts : Prop :=
  ∀ s t : State, mainNext s → s.seq.phase = .p6 → step s = .next t →
    t = { s with
      moves := s.moves.tail, seq := t.seq, pairI := t.pairI, colmI := t.colmI, oe := t.oe, lat := t.lat, clk := t.clk,
      busUpper := t.busUpper, busLower := t.busLower, rowAddr := t.rowAddr, trace := t.trace }

/-- R211 (the spec's inference): during P1 to P5 the matrix ports do not change, whoever steps; and outside P2 the keypad's
columns do not change. -/
def Obligations.PortsChangeOnlyInTheirPhase : Prop :=
  ∀ s t : State, step s = .next t →
    (s.seq.phase ≠ .p6 → t.oe = s.oe ∧ t.lat = s.lat ∧ t.clk = s.clk ∧ t.busUpper = s.busUpper ∧
      t.busLower = s.busLower ∧ t.rowAddr = s.rowAddr) ∧
    (s.seq.phase ≠ .p2 → t.colDrive = s.colDrive)

/-! ### The whole machine -/

/-- R36: no step changes the parameters. -/
def Obligations.ParametersNeverChange : Prop := ∀ s t : State, step s = .next t → t.cfg = s.cfg

/-- R80, R81, R24 (the spec's decision D15): a step stays in its phase or, being the main sequencer's, goes to the next one. -/
def Obligations.PhasesRunInOrder : Prop :=
  ∀ s t : State, step s = .next t →
    t.seq.phase = s.seq.phase ∨ (mainNext s ∧ t.seq.phase = s.seq.phase.after)

/-- R16, R17, R121: only a mode key changes `mode`; only a key instruction or the fill operation changes `sel`. -/
def Obligations.OnlyKeysChangeModeAndSelection : Prop :=
  ∀ s t : State, step s = .next t →
    (t.mode ≠ s.mode → mainNext s ∧ s.seq = .p3 ∧ s.key.pressed = true ∧ s.key.v ∈ [0xA#4, 0x0#4, 0xB#4, 0x9#4]) ∧
    (t.sel ≠ s.sel → mainNext s ∧
      ((s.seq = .p3 ∧ s.key.pressed = true) ∨ (s.seq = .p4 ∧ s.mode = .fill ∧ t.sel = 0b1111#4)))

/-- R11 to R31, R40, and column M of R37 (the spec's inference): each register, flag, cell, port and the frame buffer is written
only where its rule says. First whoever steps; then what a step of the main sequencer does to the cells and the device state it
shares with the agents (what the agents do to them is AgentsTouchOnlyTheirOwnCells). -/
def Obligations.EachRegisterHasItsWriter : Prop :=
  ∀ s t : State, step s = .next t →
    ((t.cur ≠ s.cur ∨ t.prev ≠ s.prev ∨ t.prevColor ≠ s.prevColor ∨ t.blinkCnt ≠ s.blinkCnt ∨ t.blinkOn ≠ s.blinkOn ∨
        t.btnPrev ≠ s.btnPrev) → mainNext s ∧ s.seq = .p5 .tick) ∧
    (t.mode ≠ s.mode → mainNext s ∧ s.seq = .p3 ∧ s.key.pressed = true) ∧
    (t.sel ≠ s.sel → mainNext s ∧ ((s.seq = .p3 ∧ s.key.pressed = true) ∨ (s.seq = .p4 ∧ s.mode = .fill))) ∧
    ((t.accLine ≠ s.accLine ∨ t.accRect ≠ s.accRect ∨ t.accTri ≠ s.accTri) → mainNext s ∧
      ((s.seq = .p3 ∧ s.key.pressed = true) ∨ (s.seq = .p4 ∧ s.mode = .draw))) ∧
    (t.drawColor ≠ s.drawColor → mainNext s ∧ s.seq = .p4 ∧ s.mode = .color) ∧
    (t.timerDiv ≠ s.timerDiv → mainNext s ∧ s.seq = .p4 ∧ s.mode = .speed) ∧
    (t.joy ≠ s.joy → mainNext s ∧ s.seq = .p1 .read) ∧
    (t.key ≠ s.key → mainNext s ∧ s.seq = .p2 .release) ∧
    (t.fb ≠ s.fb → mainNext s ∧ ((s.seq = .p4 ∧ (s.mode = .fill ∨ s.mode = .draw)) ∨ s.seq = .p5 .tick)) ∧
    (t.btnFlag ≠ s.btnFlag → mainNext s ∧ (s.seq = .p4 ∧ t.btnFlag = false ∨ s.seq = .p5 .tick ∧ t.btnFlag = true)) ∧
    (t.seq ≠ s.seq → mainNext s) ∧
    (t.axisI ≠ s.axisI → mainNext s ∧ s.seq.phase = .p1) ∧
    ((t.colI ≠ s.colI ∨ t.rowI ≠ s.rowI ∨ t.scanMask ≠ s.scanMask ∨ t.scanHit ≠ s.scanHit ∨ t.colDrive ≠ s.colDrive) →
      mainNext s ∧ s.seq.phase = .p2) ∧
    ((t.pairI ≠ s.pairI ∨ t.colmI ≠ s.colmI ∨ t.oe ≠ s.oe ∨ t.lat ≠ s.lat ∨ t.clk ≠ s.clk ∨ t.busUpper ≠ s.busUpper ∨
        t.busLower ≠ s.busLower ∨ t.rowAddr ≠ s.rowAddr) → mainNext s ∧ s.seq.phase = .p6) ∧
    (mainNext s →
      t.sample = s.sample ∧ t.timerCnt = s.timerCnt ∧
      (t.fresh ≠ s.fresh → s.seq = .p1 .clear ∧ t.fresh = s.fresh.set s.axisI false) ∧
      (t.conv ≠ s.conv → s.seq = .p1 .start ∧ t.conv = s.conv.set s.axisI .busy) ∧
      (t.movementDue ≠ s.movementDue → s.seq = .p5 .clear ∧ t.movementDue = false))

/-- R38, R251, R252: the state after reset, for any parameters (which entry of the palette, and every value R38's table
attributes to a decision D<n>, are the spec's decisions, log 21; that `State.reset` takes the reference values of the OPEN
parameters is the model's choice, log 1; `sample` is not stated, R25, log 3; the values of the inputs,
of the schedule and of the trace are the model's, logs 2 and 10, and not stated here). -/
def Obligations.ResetState : Prop :=
  State.reset = State.resetWith Config.reference ∧
  ∀ cfg : Config, ∃ s : State, s = State.resetWith cfg ∧ s.cfg = cfg ∧
    s.cur = ⟨0, 0⟩ ∧ s.prev = ⟨0, 0⟩ ∧ s.prevColor = s.fb.read 0 ∧ s.blinkCnt = 0 ∧ s.blinkOn = false ∧
    s.mode = .draw ∧ s.sel = 2#4 ∧ s.drawColor = cfg.palette[cfg.defaultColorIndex] ∧
    s.joy = ⟨cfg.neutralX, cfg.neutralY⟩ ∧ s.btnPrev = false ∧ s.btnFlag = false ∧ s.key.pressed = false ∧
    s.accLine = ⟨.unset, .unset⟩ ∧ s.accRect = ⟨.unset, .unset⟩ ∧ s.accTri = ⟨.unset, .unset, .unset⟩ ∧
    s.seq.phase = .p1 ∧ s.axisI = .x ∧ s.colI = 0 ∧ s.rowI = 0 ∧ s.pairI = 0 ∧ s.colmI = 0 ∧
    s.fresh = ⟨false, false⟩ ∧ s.movementDue = false ∧ s.conv = ⟨.busy, .busy⟩ ∧
    s.timerDiv = cfg.divReset ∧ s.timerCnt = 0 ∧ s.oe = false ∧ s.lat = false ∧ s.clk = false ∧
    s.busUpper = .black ∧ s.busLower = .black ∧ s.rowAddr = 0 ∧ s.colDrive = #v[false, false, false] ∧
    holdsEverywhere cfg (cfg.fbInit.colorAt cfg.width) s.fb

/-- R253 (the spec's inference): the reset state satisfies the invariant and the trace discipline. -/
def Obligations.ResetSatisfiesTheInvariant : Prop :=
  ∀ cfg : Config, Inv (State.resetWith cfg) ∧ TraceOk (State.resetWith cfg)

/-- R11, R12, R14, R17, R19, R22, R23, R24, R29, R31, R51, R107, R206 to R208: every step, of the main sequencer or of another
agent, keeps the invariant. -/
def Obligations.EveryStepKeepsTheInvariant : Prop := ∀ s t : State, Inv s → step s = .next t → Inv t

/-- R207, R213, R260: every step keeps the trace discipline: each clock pulse stands between the `BUS` of its column and a
`CLR`. -/
def Obligations.EveryStepKeepsTheTraceDiscipline : Prop :=
  ∀ s t : State, Inv s → TraceOk s → step s = .next t → TraceOk t

/-- R220 (the spec's decision D36), R45: in every state that satisfies the invariant the step has a successor: no fault, no
refusal. -/
def Obligations.TheMachineNeverStops : Prop := ∀ s : State, Inv s → ∃ t : State, step s = .next t

/-- R88, R225, R231 (R88's bound is the spec's inference): under every schedule of the other agents and the inputs, an iteration
ends at the next iteration boundary within a bound, the schedule's entries counted, and the trace it adds ends with one whole
refresh pass of the frame buffer, whatever the other agents did meanwhile. -/
def Obligations.EveryIterationCompletes : Prop :=
  ∀ s : State, Inv s → atBoundary s → ∃ (n : Nat) (t : State), 0 < n ∧
    n ≤ 34 + s.cfg.npairs * (3 * s.cfg.width + 5) + s.moves.length ∧
    Host.Core.run Sys2Proof.core n s = .next t ∧ atBoundary t ∧
    ∃ before : List Event, t.trace = (refreshEvents t).reverse ++ before ++ s.trace
end

