-- ==== Sys2Proof/Laws/Memory.lean ====
section
/-! SUPPORT. The frame buffer as a memory: reads after writes, and the canonical form kept by every operation. -/

namespace Sys2Proof.Laws

open Sys2Proof.Machine

variable {n lo a b : Nat} {m : Memory} {c : Color} {f : Nat → Color}

theorem wfFrom_cons {p : Nat × Color} :
    Memory.wfFrom n lo (p :: m) = true ↔
      lo ≤ p.1 ∧ p.1 < n ∧ p.2 ≠ Config.unlisted ∧ Memory.wfFrom n (p.1 + 1) m = true := by
  obtain ⟨a, c⟩ := p
  simp [Memory.wfFrom, and_assoc]

theorem wfFrom_weaken (h : Memory.wfFrom n a m = true) (hle : lo ≤ a) : Memory.wfFrom n lo m = true := by
  cases m with
  | nil => rfl
  | cons p m => rw [wfFrom_cons] at h ⊢; exact ⟨by omega, h.2⟩

/-- A cell below the first listed one is unlisted. -/
theorem read_below (h : Memory.wfFrom n lo m = true) (ha : a < lo) : m.read a = Config.unlisted := by
  induction m generalizing lo with
  | nil => rfl
  | cons p m ih =>
    rw [wfFrom_cons] at h
    have hne : a ≠ p.1 := by omega
    simp only [Memory.read, hne, if_false]
    exact ih h.2.2.2 (by omega)

theorem read_write_other (hne : b ≠ a) : (m.write a c).read b = m.read b := by
  induction m with
  | nil => by_cases h : c = Config.unlisted <;> simp [Memory.write, Memory.read, h, hne]
  | cons p m ih =>
    obtain ⟨d, e⟩ := p
    simp only [Memory.write]
    split_ifs with h1 h2 h2 h3 <;> simp_all [Memory.read]

theorem read_write_self (h : Memory.wfFrom n lo m = true) : (m.write a c).read a = c := by
  induction m generalizing lo with
  | nil => by_cases hc : c = Config.unlisted <;> simp [Memory.write, Memory.read, hc]
  | cons p m ih =>
    obtain ⟨d, e⟩ := p
    rw [wfFrom_cons] at h
    obtain ⟨h1, h2, h3, h4⟩ := h
    simp only [Memory.write]
    split_ifs with ha hc hd hc
    · have hne : a ≠ d := by omega
      simp only [Memory.read, hne, if_false, hc]
      exact read_below h4 (by omega)
    · simp [Memory.read]
    · rw [hc, hd]; exact read_below h4 (by omega)
    · simp [Memory.read]
    · simp only [Memory.read, hd, if_false]; exact ih h4

theorem wfFrom_write (h : Memory.wfFrom n lo m = true) (hlo : lo ≤ a) (hn : a < n) :
    Memory.wfFrom n lo (m.write a c) = true := by
  induction m generalizing lo with
  | nil => by_cases hc : c = Config.unlisted <;> simp [Memory.write, Memory.wfFrom, hc, hlo, hn]
  | cons p m ih =>
    obtain ⟨d, e⟩ := p
    have h' := h
    rw [wfFrom_cons] at h'
    obtain ⟨h1, h2, h3, h4⟩ := h'
    simp only [Memory.write]
    split_ifs with ha hc hd hc
    · exact h
    · rw [wfFrom_cons]; exact ⟨hlo, hn, hc, by rw [wfFrom_cons]; exact ⟨by simp only; omega, h2, h3, h4⟩⟩
    · exact wfFrom_weaken h4 (by simp only at h1 ⊢; omega)
    · subst hd; rw [wfFrom_cons]; exact ⟨h1, h2, hc, h4⟩
    · rw [wfFrom_cons]; exact ⟨h1, h2, h3, ih h4 (by simp only; omega)⟩

/-- A write keeps the canonical form. -/
theorem wf_write (h : m.wf n = true) (hn : a < n) : (m.write a c).wf n = true := wfFrom_write h (Nat.zero_le a) hn

/-- A read after a write: the written cell holds the colour, every other cell is as before. -/
theorem read_write (h : m.wf n = true) : (m.write a c).read b = if b = a then c else m.read b := by
  by_cases hb : b = a
  · subst hb; rw [if_pos rfl]; exact read_write_self h
  · rw [if_neg hb]; exact read_write_other hb

theorem wfFrom_buildFrom (k : Nat) (h : lo + k ≤ n) : Memory.wfFrom n lo (Memory.buildFrom f lo k) = true := by
  induction k generalizing lo with
  | zero => rfl
  | succ k ih =>
    have hk := ih (lo := lo + 1) (by omega)
    simp only [Memory.buildFrom]
    split_ifs with hf
    · exact wfFrom_weaken hk (by omega)
    · rw [wfFrom_cons]; exact ⟨le_refl _, by simp only; omega, hf, hk⟩

/-- A whole buffer built from a function is in canonical form. -/
theorem wf_buildFrom : (Memory.buildFrom f 0 n).wf n = true := wfFrom_buildFrom n (by omega)

theorem read_buildFrom (k : Nat) (h1 : lo ≤ a) (h2 : a < lo + k) : (Memory.buildFrom f lo k).read a = f a := by
  induction k generalizing lo with
  | zero => omega
  | succ k ih =>
    simp only [Memory.buildFrom]
    by_cases ha : a = lo
    · subst ha
      split_ifs with hf
      · rw [hf]; exact read_below (wfFrom_buildFrom (n := a + 1 + k) k (le_refl _)) (by omega)
      · simp [Memory.read]
    · split_ifs with hf
      · exact ih (by omega) (by omega)
      · simp only [Memory.read, ha, if_false]; exact ih (by omega) (by omega)

/-- Two buffers in canonical form that read alike are the same data. -/
theorem wfFrom_ext {m' : Memory} (h : Memory.wfFrom n lo m = true) (h' : Memory.wfFrom n lo m' = true)
    (heq : ∀ a, m.read a = m'.read a) : m = m' := by
  induction m generalizing lo m' with
  | nil =>
    cases m' with
    | nil => rfl
    | cons p m' => have := heq p.1; rw [wfFrom_cons] at h'; simp [Memory.read] at this; exact absurd this.symm h'.2.2.1
  | cons p m ih =>
    cases m' with
    | nil => have := heq p.1; rw [wfFrom_cons] at h; simp [Memory.read] at this; exact absurd this h.2.2.1
    | cons q m' =>
      obtain ⟨d, e⟩ := p
      obtain ⟨d', e'⟩ := q
      rw [wfFrom_cons] at h h'
      have hd : d = d' := by
        rcases Nat.lt_trichotomy d d' with hlt | heq' | hlt
        · have := heq d
          rw [show Memory.read ((d', e') :: m') d = Config.unlisted from
            read_below (lo := d') (n := n) (by rw [wfFrom_cons]; exact ⟨le_refl _, h'.2⟩) hlt] at this
          simp [Memory.read] at this; exact absurd this h.2.2.1
        · exact heq'
        · have := heq d'
          rw [show Memory.read ((d, e) :: m) d' = Config.unlisted from
            read_below (lo := d) (n := n) (by rw [wfFrom_cons]; exact ⟨le_refl _, h.2⟩) hlt] at this
          simp [Memory.read] at this; exact absurd this.symm h'.2.2.1
      subst hd
      have he : e = e' := by simpa [Memory.read] using heq d
      subst he
      have hm : m = m' := ih h.2.2.2 h'.2.2.2 fun a => by
        by_cases ha : a = d
        · subst ha
          rw [read_below h.2.2.2 (by simp only; omega), read_below h'.2.2.2 (by simp only; omega)]
        · simpa [Memory.read, ha] using heq a
      rw [hm]

variable {cfg : Config} {fb : Memory} {cells : List Point}

theorem cellNumber_lt {x y : Int} (h : inBounds cfg x y) : cellNumber cfg x y < cellCount cfg := by
  obtain ⟨hx0, hx, hy0, hy⟩ := h
  have hx' : x.toNat < cfg.width := by omega
  have hy' : y.toNat + 1 ≤ cfg.height := by omega
  calc cellNumber cfg x y < y.toNat * cfg.width + cfg.width := by unfold cellNumber; omega
    _ = (y.toNat + 1) * cfg.width := by ring
    _ ≤ cfg.height * cfg.width := Nat.mul_le_mul_right _ hy'
    _ = cellCount cfg := Nat.mul_comm _ _

/-- Two cells in bounds with one number are one cell. -/
theorem cellNumber_inj {x y x' y' : Int} (h : inBounds cfg x y) (h' : inBounds cfg x' y')
    (e : cellNumber cfg x y = cellNumber cfg x' y') : x = x' ∧ y = y' := by
  obtain ⟨hx0, hx, hy0, hy⟩ := h
  obtain ⟨hx0', hx', hy0', hy'⟩ := h'
  have a1 : x.toNat < cfg.width := by omega
  have a2 : x'.toNat < cfg.width := by omega
  unfold cellNumber at e
  have hdiv := congrArg (· / cfg.width) e
  have hmod := congrArg (· % cfg.width) e
  simp only [Nat.mul_comm _ cfg.width, Nat.mul_add_div (show 0 < cfg.width by omega), Nat.mul_add_mod,
    Nat.div_eq_of_lt a1, Nat.div_eq_of_lt a2, Nat.mod_eq_of_lt a1, Nat.mod_eq_of_lt a2] at hdiv hmod
  omega

/-- R44: `draw` keeps the canonical form. -/
theorem wf_drawCell {p : Point} (h : fb.wf (cellCount cfg) = true) : (drawCell cfg c fb p).wf (cellCount cfg) = true := by
  unfold drawCell; split_ifs with hb
  · exact wf_write h (cellNumber_lt hb)
  · exact h

/-- R44: what one `draw` leaves in each cell. -/
theorem read_drawCell {p : Point} {x y : Int} (h : fb.wf (cellCount cfg) = true) (hb : inBounds cfg x y) :
    (drawCell cfg c fb p).read (cellNumber cfg x y) =
      if p = ⟨x, y⟩ then c else fb.read (cellNumber cfg x y) := by
  by_cases hp : p = ⟨x, y⟩
  · subst hp; rw [drawCell, if_pos hb, if_pos rfl]; exact read_write_self h
  · rw [if_neg hp]; unfold drawCell; split_ifs with hpb
    · refine read_write_other fun e => hp ?_
      obtain ⟨e1, e2⟩ := cellNumber_inj hb hpb e
      cases p; simp_all
    · rfl

theorem wf_foldl_drawCell (h : fb.wf (cellCount cfg) = true) :
    (cells.foldl (drawCell cfg c) fb).wf (cellCount cfg) = true := by
  induction cells generalizing fb with
  | nil => exact h
  | cons p ps ih => exact ih (wf_drawCell h)

/-- R181: what a sequence of draws in one colour leaves in each cell. -/
theorem read_foldl_drawCell {x y : Int} (h : fb.wf (cellCount cfg) = true) (hb : inBounds cfg x y) :
    (cells.foldl (drawCell cfg c) fb).read (cellNumber cfg x y) =
      if ⟨x, y⟩ ∈ cells then c else fb.read (cellNumber cfg x y) := by
  induction cells generalizing fb with
  | nil => simp
  | cons p ps ih =>
    rw [List.foldl_cons, ih (wf_drawCell h), read_drawCell h hb]
    by_cases h1 : (⟨x, y⟩ : Point) ∈ ps
    · simp [h1]
    · by_cases h2 : p = ⟨x, y⟩
      · simp [h1, h2]
      · have h3 : ¬ (⟨x, y⟩ : Point) = p := fun e => h2 e.symm
        simp [h1, h2, h3]

end Sys2Proof.Laws
end

