-- ==== Sys2Proof/Laws/State.lean ====
section
/-! SUPPORT. One lemma per field of State for each named update: what it writes, and that it leaves the rest. -/

namespace Sys2Proof.Laws

open Sys2Proof.Machine

variable (s : State)

/-! ### `draw` -/

@[simp] theorem draw_cfg (x y : Int) (c : Color) : (draw x y c s).cfg = s.cfg := rfl
@[simp] theorem draw_cur (x y : Int) (c : Color) : (draw x y c s).cur = s.cur := rfl
@[simp] theorem draw_prev (x y : Int) (c : Color) : (draw x y c s).prev = s.prev := rfl
@[simp] theorem draw_prevColor (x y : Int) (c : Color) : (draw x y c s).prevColor = s.prevColor := rfl
@[simp] theorem draw_blinkCnt (x y : Int) (c : Color) : (draw x y c s).blinkCnt = s.blinkCnt := rfl
@[simp] theorem draw_blinkOn (x y : Int) (c : Color) : (draw x y c s).blinkOn = s.blinkOn := rfl
@[simp] theorem draw_mode (x y : Int) (c : Color) : (draw x y c s).mode = s.mode := rfl
@[simp] theorem draw_sel (x y : Int) (c : Color) : (draw x y c s).sel = s.sel := rfl
@[simp] theorem draw_drawColor (x y : Int) (c : Color) : (draw x y c s).drawColor = s.drawColor := rfl
@[simp] theorem draw_joy (x y : Int) (c : Color) : (draw x y c s).joy = s.joy := rfl
@[simp] theorem draw_btnPrev (x y : Int) (c : Color) : (draw x y c s).btnPrev = s.btnPrev := rfl
@[simp] theorem draw_btnFlag (x y : Int) (c : Color) : (draw x y c s).btnFlag = s.btnFlag := rfl
@[simp] theorem draw_key (x y : Int) (c : Color) : (draw x y c s).key = s.key := rfl
@[simp] theorem draw_accLine (x y : Int) (c : Color) : (draw x y c s).accLine = s.accLine := rfl
@[simp] theorem draw_accRect (x y : Int) (c : Color) : (draw x y c s).accRect = s.accRect := rfl
@[simp] theorem draw_accTri (x y : Int) (c : Color) : (draw x y c s).accTri = s.accTri := rfl
@[simp] theorem draw_seq (x y : Int) (c : Color) : (draw x y c s).seq = s.seq := rfl
@[simp] theorem draw_axisI (x y : Int) (c : Color) : (draw x y c s).axisI = s.axisI := rfl
@[simp] theorem draw_colI (x y : Int) (c : Color) : (draw x y c s).colI = s.colI := rfl
@[simp] theorem draw_rowI (x y : Int) (c : Color) : (draw x y c s).rowI = s.rowI := rfl
@[simp] theorem draw_pairI (x y : Int) (c : Color) : (draw x y c s).pairI = s.pairI := rfl
@[simp] theorem draw_colmI (x y : Int) (c : Color) : (draw x y c s).colmI = s.colmI := rfl
@[simp] theorem draw_scanMask (x y : Int) (c : Color) : (draw x y c s).scanMask = s.scanMask := rfl
@[simp] theorem draw_scanHit (x y : Int) (c : Color) : (draw x y c s).scanHit = s.scanHit := rfl
@[simp] theorem draw_sample (x y : Int) (c : Color) : (draw x y c s).sample = s.sample := rfl
@[simp] theorem draw_fresh (x y : Int) (c : Color) : (draw x y c s).fresh = s.fresh := rfl
@[simp] theorem draw_movementDue (x y : Int) (c : Color) : (draw x y c s).movementDue = s.movementDue := rfl
@[simp] theorem draw_conv (x y : Int) (c : Color) : (draw x y c s).conv = s.conv := rfl
@[simp] theorem draw_timerDiv (x y : Int) (c : Color) : (draw x y c s).timerDiv = s.timerDiv := rfl
@[simp] theorem draw_timerCnt (x y : Int) (c : Color) : (draw x y c s).timerCnt = s.timerCnt := rfl
@[simp] theorem draw_oe (x y : Int) (c : Color) : (draw x y c s).oe = s.oe := rfl
@[simp] theorem draw_lat (x y : Int) (c : Color) : (draw x y c s).lat = s.lat := rfl
@[simp] theorem draw_clk (x y : Int) (c : Color) : (draw x y c s).clk = s.clk := rfl
@[simp] theorem draw_busUpper (x y : Int) (c : Color) : (draw x y c s).busUpper = s.busUpper := rfl
@[simp] theorem draw_busLower (x y : Int) (c : Color) : (draw x y c s).busLower = s.busLower := rfl
@[simp] theorem draw_rowAddr (x y : Int) (c : Color) : (draw x y c s).rowAddr = s.rowAddr := rfl
@[simp] theorem draw_colDrive (x y : Int) (c : Color) : (draw x y c s).colDrive = s.colDrive := rfl
@[simp] theorem draw_fb (x y : Int) (c : Color) : (draw x y c s).fb = drawCell s.cfg c s.fb ⟨x, y⟩ := rfl
@[simp] theorem draw_adcIn (x y : Int) (c : Color) : (draw x y c s).adcIn = s.adcIn := rfl
@[simp] theorem draw_button (x y : Int) (c : Color) : (draw x y c s).button = s.button := rfl
@[simp] theorem draw_keysDown (x y : Int) (c : Color) : (draw x y c s).keysDown = s.keysDown := rfl
@[simp] theorem draw_moves (x y : Int) (c : Color) : (draw x y c s).moves = s.moves := rfl
@[simp] theorem draw_trace (x y : Int) (c : Color) : (draw x y c s).trace = s.trace := rfl

/-! ### `drawCells` -/

@[simp] theorem drawCells_cfg (ps : List Point) (c : Color) : (drawCells ps c s).cfg = s.cfg := rfl
@[simp] theorem drawCells_cur (ps : List Point) (c : Color) : (drawCells ps c s).cur = s.cur := rfl
@[simp] theorem drawCells_prev (ps : List Point) (c : Color) : (drawCells ps c s).prev = s.prev := rfl
@[simp] theorem drawCells_prevColor (ps : List Point) (c : Color) : (drawCells ps c s).prevColor = s.prevColor := rfl
@[simp] theorem drawCells_blinkCnt (ps : List Point) (c : Color) : (drawCells ps c s).blinkCnt = s.blinkCnt := rfl
@[simp] theorem drawCells_blinkOn (ps : List Point) (c : Color) : (drawCells ps c s).blinkOn = s.blinkOn := rfl
@[simp] theorem drawCells_mode (ps : List Point) (c : Color) : (drawCells ps c s).mode = s.mode := rfl
@[simp] theorem drawCells_sel (ps : List Point) (c : Color) : (drawCells ps c s).sel = s.sel := rfl
@[simp] theorem drawCells_drawColor (ps : List Point) (c : Color) : (drawCells ps c s).drawColor = s.drawColor := rfl
@[simp] theorem drawCells_joy (ps : List Point) (c : Color) : (drawCells ps c s).joy = s.joy := rfl
@[simp] theorem drawCells_btnPrev (ps : List Point) (c : Color) : (drawCells ps c s).btnPrev = s.btnPrev := rfl
@[simp] theorem drawCells_btnFlag (ps : List Point) (c : Color) : (drawCells ps c s).btnFlag = s.btnFlag := rfl
@[simp] theorem drawCells_key (ps : List Point) (c : Color) : (drawCells ps c s).key = s.key := rfl
@[simp] theorem drawCells_accLine (ps : List Point) (c : Color) : (drawCells ps c s).accLine = s.accLine := rfl
@[simp] theorem drawCells_accRect (ps : List Point) (c : Color) : (drawCells ps c s).accRect = s.accRect := rfl
@[simp] theorem drawCells_accTri (ps : List Point) (c : Color) : (drawCells ps c s).accTri = s.accTri := rfl
@[simp] theorem drawCells_seq (ps : List Point) (c : Color) : (drawCells ps c s).seq = s.seq := rfl
@[simp] theorem drawCells_axisI (ps : List Point) (c : Color) : (drawCells ps c s).axisI = s.axisI := rfl
@[simp] theorem drawCells_colI (ps : List Point) (c : Color) : (drawCells ps c s).colI = s.colI := rfl
@[simp] theorem drawCells_rowI (ps : List Point) (c : Color) : (drawCells ps c s).rowI = s.rowI := rfl
@[simp] theorem drawCells_pairI (ps : List Point) (c : Color) : (drawCells ps c s).pairI = s.pairI := rfl
@[simp] theorem drawCells_colmI (ps : List Point) (c : Color) : (drawCells ps c s).colmI = s.colmI := rfl
@[simp] theorem drawCells_scanMask (ps : List Point) (c : Color) : (drawCells ps c s).scanMask = s.scanMask := rfl
@[simp] theorem drawCells_scanHit (ps : List Point) (c : Color) : (drawCells ps c s).scanHit = s.scanHit := rfl
@[simp] theorem drawCells_sample (ps : List Point) (c : Color) : (drawCells ps c s).sample = s.sample := rfl
@[simp] theorem drawCells_fresh (ps : List Point) (c : Color) : (drawCells ps c s).fresh = s.fresh := rfl
@[simp] theorem drawCells_movementDue (ps : List Point) (c : Color) : (drawCells ps c s).movementDue = s.movementDue := rfl
@[simp] theorem drawCells_conv (ps : List Point) (c : Color) : (drawCells ps c s).conv = s.conv := rfl
@[simp] theorem drawCells_timerDiv (ps : List Point) (c : Color) : (drawCells ps c s).timerDiv = s.timerDiv := rfl
@[simp] theorem drawCells_timerCnt (ps : List Point) (c : Color) : (drawCells ps c s).timerCnt = s.timerCnt := rfl
@[simp] theorem drawCells_oe (ps : List Point) (c : Color) : (drawCells ps c s).oe = s.oe := rfl
@[simp] theorem drawCells_lat (ps : List Point) (c : Color) : (drawCells ps c s).lat = s.lat := rfl
@[simp] theorem drawCells_clk (ps : List Point) (c : Color) : (drawCells ps c s).clk = s.clk := rfl
@[simp] theorem drawCells_busUpper (ps : List Point) (c : Color) : (drawCells ps c s).busUpper = s.busUpper := rfl
@[simp] theorem drawCells_busLower (ps : List Point) (c : Color) : (drawCells ps c s).busLower = s.busLower := rfl
@[simp] theorem drawCells_rowAddr (ps : List Point) (c : Color) : (drawCells ps c s).rowAddr = s.rowAddr := rfl
@[simp] theorem drawCells_colDrive (ps : List Point) (c : Color) : (drawCells ps c s).colDrive = s.colDrive := rfl
@[simp] theorem drawCells_fb (ps : List Point) (c : Color) : (drawCells ps c s).fb = ps.foldl (drawCell s.cfg c) s.fb := rfl
@[simp] theorem drawCells_adcIn (ps : List Point) (c : Color) : (drawCells ps c s).adcIn = s.adcIn := rfl
@[simp] theorem drawCells_button (ps : List Point) (c : Color) : (drawCells ps c s).button = s.button := rfl
@[simp] theorem drawCells_keysDown (ps : List Point) (c : Color) : (drawCells ps c s).keysDown = s.keysDown := rfl
@[simp] theorem drawCells_moves (ps : List Point) (c : Color) : (drawCells ps c s).moves = s.moves := rfl
@[simp] theorem drawCells_trace (ps : List Point) (c : Color) : (drawCells ps c s).trace = s.trace := rfl

/-! ### `fill` -/

@[simp] theorem fill_cfg (c : Color) : (fill c s).cfg = s.cfg := rfl
@[simp] theorem fill_cur (c : Color) : (fill c s).cur = s.cur := rfl
@[simp] theorem fill_prev (c : Color) : (fill c s).prev = s.prev := rfl
@[simp] theorem fill_prevColor (c : Color) : (fill c s).prevColor = s.prevColor := rfl
@[simp] theorem fill_blinkCnt (c : Color) : (fill c s).blinkCnt = s.blinkCnt := rfl
@[simp] theorem fill_blinkOn (c : Color) : (fill c s).blinkOn = s.blinkOn := rfl
@[simp] theorem fill_mode (c : Color) : (fill c s).mode = s.mode := rfl
@[simp] theorem fill_sel (c : Color) : (fill c s).sel = s.sel := rfl
@[simp] theorem fill_drawColor (c : Color) : (fill c s).drawColor = s.drawColor := rfl
@[simp] theorem fill_joy (c : Color) : (fill c s).joy = s.joy := rfl
@[simp] theorem fill_btnPrev (c : Color) : (fill c s).btnPrev = s.btnPrev := rfl
@[simp] theorem fill_btnFlag (c : Color) : (fill c s).btnFlag = s.btnFlag := rfl
@[simp] theorem fill_key (c : Color) : (fill c s).key = s.key := rfl
@[simp] theorem fill_accLine (c : Color) : (fill c s).accLine = s.accLine := rfl
@[simp] theorem fill_accRect (c : Color) : (fill c s).accRect = s.accRect := rfl
@[simp] theorem fill_accTri (c : Color) : (fill c s).accTri = s.accTri := rfl
@[simp] theorem fill_seq (c : Color) : (fill c s).seq = s.seq := rfl
@[simp] theorem fill_axisI (c : Color) : (fill c s).axisI = s.axisI := rfl
@[simp] theorem fill_colI (c : Color) : (fill c s).colI = s.colI := rfl
@[simp] theorem fill_rowI (c : Color) : (fill c s).rowI = s.rowI := rfl
@[simp] theorem fill_pairI (c : Color) : (fill c s).pairI = s.pairI := rfl
@[simp] theorem fill_colmI (c : Color) : (fill c s).colmI = s.colmI := rfl
@[simp] theorem fill_scanMask (c : Color) : (fill c s).scanMask = s.scanMask := rfl
@[simp] theorem fill_scanHit (c : Color) : (fill c s).scanHit = s.scanHit := rfl
@[simp] theorem fill_sample (c : Color) : (fill c s).sample = s.sample := rfl
@[simp] theorem fill_fresh (c : Color) : (fill c s).fresh = s.fresh := rfl
@[simp] theorem fill_movementDue (c : Color) : (fill c s).movementDue = s.movementDue := rfl
@[simp] theorem fill_conv (c : Color) : (fill c s).conv = s.conv := rfl
@[simp] theorem fill_timerDiv (c : Color) : (fill c s).timerDiv = s.timerDiv := rfl
@[simp] theorem fill_timerCnt (c : Color) : (fill c s).timerCnt = s.timerCnt := rfl
@[simp] theorem fill_oe (c : Color) : (fill c s).oe = s.oe := rfl
@[simp] theorem fill_lat (c : Color) : (fill c s).lat = s.lat := rfl
@[simp] theorem fill_clk (c : Color) : (fill c s).clk = s.clk := rfl
@[simp] theorem fill_busUpper (c : Color) : (fill c s).busUpper = s.busUpper := rfl
@[simp] theorem fill_busLower (c : Color) : (fill c s).busLower = s.busLower := rfl
@[simp] theorem fill_rowAddr (c : Color) : (fill c s).rowAddr = s.rowAddr := rfl
@[simp] theorem fill_colDrive (c : Color) : (fill c s).colDrive = s.colDrive := rfl
@[simp] theorem fill_fb (c : Color) : (fill c s).fb = Memory.buildFrom (fun _ => c) 0 (cellCount s.cfg) := rfl
@[simp] theorem fill_adcIn (c : Color) : (fill c s).adcIn = s.adcIn := rfl
@[simp] theorem fill_button (c : Color) : (fill c s).button = s.button := rfl
@[simp] theorem fill_keysDown (c : Color) : (fill c s).keysDown = s.keysDown := rfl
@[simp] theorem fill_moves (c : Color) : (fill c s).moves = s.moves := rfl
@[simp] theorem fill_trace (c : Color) : (fill c s).trace = s.trace := rfl

/-! ### `paint` -/

@[simp] theorem paint_cfg (p : Pattern) : (paint p s).cfg = s.cfg := rfl
@[simp] theorem paint_cur (p : Pattern) : (paint p s).cur = s.cur := rfl
@[simp] theorem paint_prev (p : Pattern) : (paint p s).prev = s.prev := rfl
@[simp] theorem paint_prevColor (p : Pattern) : (paint p s).prevColor = s.prevColor := rfl
@[simp] theorem paint_blinkCnt (p : Pattern) : (paint p s).blinkCnt = s.blinkCnt := rfl
@[simp] theorem paint_blinkOn (p : Pattern) : (paint p s).blinkOn = s.blinkOn := rfl
@[simp] theorem paint_mode (p : Pattern) : (paint p s).mode = s.mode := rfl
@[simp] theorem paint_sel (p : Pattern) : (paint p s).sel = s.sel := rfl
@[simp] theorem paint_drawColor (p : Pattern) : (paint p s).drawColor = s.drawColor := rfl
@[simp] theorem paint_joy (p : Pattern) : (paint p s).joy = s.joy := rfl
@[simp] theorem paint_btnPrev (p : Pattern) : (paint p s).btnPrev = s.btnPrev := rfl
@[simp] theorem paint_btnFlag (p : Pattern) : (paint p s).btnFlag = s.btnFlag := rfl
@[simp] theorem paint_key (p : Pattern) : (paint p s).key = s.key := rfl
@[simp] theorem paint_accLine (p : Pattern) : (paint p s).accLine = s.accLine := rfl
@[simp] theorem paint_accRect (p : Pattern) : (paint p s).accRect = s.accRect := rfl
@[simp] theorem paint_accTri (p : Pattern) : (paint p s).accTri = s.accTri := rfl
@[simp] theorem paint_seq (p : Pattern) : (paint p s).seq = s.seq := rfl
@[simp] theorem paint_axisI (p : Pattern) : (paint p s).axisI = s.axisI := rfl
@[simp] theorem paint_colI (p : Pattern) : (paint p s).colI = s.colI := rfl
@[simp] theorem paint_rowI (p : Pattern) : (paint p s).rowI = s.rowI := rfl
@[simp] theorem paint_pairI (p : Pattern) : (paint p s).pairI = s.pairI := rfl
@[simp] theorem paint_colmI (p : Pattern) : (paint p s).colmI = s.colmI := rfl
@[simp] theorem paint_scanMask (p : Pattern) : (paint p s).scanMask = s.scanMask := rfl
@[simp] theorem paint_scanHit (p : Pattern) : (paint p s).scanHit = s.scanHit := rfl
@[simp] theorem paint_sample (p : Pattern) : (paint p s).sample = s.sample := rfl
@[simp] theorem paint_fresh (p : Pattern) : (paint p s).fresh = s.fresh := rfl
@[simp] theorem paint_movementDue (p : Pattern) : (paint p s).movementDue = s.movementDue := rfl
@[simp] theorem paint_conv (p : Pattern) : (paint p s).conv = s.conv := rfl
@[simp] theorem paint_timerDiv (p : Pattern) : (paint p s).timerDiv = s.timerDiv := rfl
@[simp] theorem paint_timerCnt (p : Pattern) : (paint p s).timerCnt = s.timerCnt := rfl
@[simp] theorem paint_oe (p : Pattern) : (paint p s).oe = s.oe := rfl
@[simp] theorem paint_lat (p : Pattern) : (paint p s).lat = s.lat := rfl
@[simp] theorem paint_clk (p : Pattern) : (paint p s).clk = s.clk := rfl
@[simp] theorem paint_busUpper (p : Pattern) : (paint p s).busUpper = s.busUpper := rfl
@[simp] theorem paint_busLower (p : Pattern) : (paint p s).busLower = s.busLower := rfl
@[simp] theorem paint_rowAddr (p : Pattern) : (paint p s).rowAddr = s.rowAddr := rfl
@[simp] theorem paint_colDrive (p : Pattern) : (paint p s).colDrive = s.colDrive := rfl
@[simp] theorem paint_fb (p : Pattern) : (paint p s).fb = Memory.buildFrom (fun a => patternColor s.cfg p (a % s.cfg.width) (a / s.cfg.width)) 0 (cellCount s.cfg) := rfl
@[simp] theorem paint_adcIn (p : Pattern) : (paint p s).adcIn = s.adcIn := rfl
@[simp] theorem paint_button (p : Pattern) : (paint p s).button = s.button := rfl
@[simp] theorem paint_keysDown (p : Pattern) : (paint p s).keysDown = s.keysDown := rfl
@[simp] theorem paint_moves (p : Pattern) : (paint p s).moves = s.moves := rfl
@[simp] theorem paint_trace (p : Pattern) : (paint p s).trace = s.trace := rfl

/-! ### `resetAccumulators` -/

@[simp] theorem resetAccumulators_cfg : (resetAccumulators s).cfg = s.cfg := rfl
@[simp] theorem resetAccumulators_cur : (resetAccumulators s).cur = s.cur := rfl
@[simp] theorem resetAccumulators_prev : (resetAccumulators s).prev = s.prev := rfl
@[simp] theorem resetAccumulators_prevColor : (resetAccumulators s).prevColor = s.prevColor := rfl
@[simp] theorem resetAccumulators_blinkCnt : (resetAccumulators s).blinkCnt = s.blinkCnt := rfl
@[simp] theorem resetAccumulators_blinkOn : (resetAccumulators s).blinkOn = s.blinkOn := rfl
@[simp] theorem resetAccumulators_mode : (resetAccumulators s).mode = s.mode := rfl
@[simp] theorem resetAccumulators_sel : (resetAccumulators s).sel = s.sel := rfl
@[simp] theorem resetAccumulators_drawColor : (resetAccumulators s).drawColor = s.drawColor := rfl
@[simp] theorem resetAccumulators_joy : (resetAccumulators s).joy = s.joy := rfl
@[simp] theorem resetAccumulators_btnPrev : (resetAccumulators s).btnPrev = s.btnPrev := rfl
@[simp] theorem resetAccumulators_btnFlag : (resetAccumulators s).btnFlag = s.btnFlag := rfl
@[simp] theorem resetAccumulators_key : (resetAccumulators s).key = s.key := rfl
@[simp] theorem resetAccumulators_accLine : (resetAccumulators s).accLine = .unset := rfl
@[simp] theorem resetAccumulators_accRect : (resetAccumulators s).accRect = .unset := rfl
@[simp] theorem resetAccumulators_accTri : (resetAccumulators s).accTri = .unset := rfl
@[simp] theorem resetAccumulators_seq : (resetAccumulators s).seq = s.seq := rfl
@[simp] theorem resetAccumulators_axisI : (resetAccumulators s).axisI = s.axisI := rfl
@[simp] theorem resetAccumulators_colI : (resetAccumulators s).colI = s.colI := rfl
@[simp] theorem resetAccumulators_rowI : (resetAccumulators s).rowI = s.rowI := rfl
@[simp] theorem resetAccumulators_pairI : (resetAccumulators s).pairI = s.pairI := rfl
@[simp] theorem resetAccumulators_colmI : (resetAccumulators s).colmI = s.colmI := rfl
@[simp] theorem resetAccumulators_scanMask : (resetAccumulators s).scanMask = s.scanMask := rfl
@[simp] theorem resetAccumulators_scanHit : (resetAccumulators s).scanHit = s.scanHit := rfl
@[simp] theorem resetAccumulators_sample : (resetAccumulators s).sample = s.sample := rfl
@[simp] theorem resetAccumulators_fresh : (resetAccumulators s).fresh = s.fresh := rfl
@[simp] theorem resetAccumulators_movementDue : (resetAccumulators s).movementDue = s.movementDue := rfl
@[simp] theorem resetAccumulators_conv : (resetAccumulators s).conv = s.conv := rfl
@[simp] theorem resetAccumulators_timerDiv : (resetAccumulators s).timerDiv = s.timerDiv := rfl
@[simp] theorem resetAccumulators_timerCnt : (resetAccumulators s).timerCnt = s.timerCnt := rfl
@[simp] theorem resetAccumulators_oe : (resetAccumulators s).oe = s.oe := rfl
@[simp] theorem resetAccumulators_lat : (resetAccumulators s).lat = s.lat := rfl
@[simp] theorem resetAccumulators_clk : (resetAccumulators s).clk = s.clk := rfl
@[simp] theorem resetAccumulators_busUpper : (resetAccumulators s).busUpper = s.busUpper := rfl
@[simp] theorem resetAccumulators_busLower : (resetAccumulators s).busLower = s.busLower := rfl
@[simp] theorem resetAccumulators_rowAddr : (resetAccumulators s).rowAddr = s.rowAddr := rfl
@[simp] theorem resetAccumulators_colDrive : (resetAccumulators s).colDrive = s.colDrive := rfl
@[simp] theorem resetAccumulators_fb : (resetAccumulators s).fb = s.fb := rfl
@[simp] theorem resetAccumulators_adcIn : (resetAccumulators s).adcIn = s.adcIn := rfl
@[simp] theorem resetAccumulators_button : (resetAccumulators s).button = s.button := rfl
@[simp] theorem resetAccumulators_keysDown : (resetAccumulators s).keysDown = s.keysDown := rfl
@[simp] theorem resetAccumulators_moves : (resetAccumulators s).moves = s.moves := rfl
@[simp] theorem resetAccumulators_trace : (resetAccumulators s).trace = s.trace := rfl

/-! ### `enterMode` -/

@[simp] theorem enterMode_cfg (m : Mode) : (enterMode m s).cfg = s.cfg := rfl
@[simp] theorem enterMode_cur (m : Mode) : (enterMode m s).cur = s.cur := rfl
@[simp] theorem enterMode_prev (m : Mode) : (enterMode m s).prev = s.prev := rfl
@[simp] theorem enterMode_prevColor (m : Mode) : (enterMode m s).prevColor = s.prevColor := rfl
@[simp] theorem enterMode_blinkCnt (m : Mode) : (enterMode m s).blinkCnt = s.blinkCnt := rfl
@[simp] theorem enterMode_blinkOn (m : Mode) : (enterMode m s).blinkOn = s.blinkOn := rfl
@[simp] theorem enterMode_mode (m : Mode) : (enterMode m s).mode = m := rfl
@[simp] theorem enterMode_sel (m : Mode) : (enterMode m s).sel = selNone := rfl
@[simp] theorem enterMode_drawColor (m : Mode) : (enterMode m s).drawColor = s.drawColor := rfl
@[simp] theorem enterMode_joy (m : Mode) : (enterMode m s).joy = s.joy := rfl
@[simp] theorem enterMode_btnPrev (m : Mode) : (enterMode m s).btnPrev = s.btnPrev := rfl
@[simp] theorem enterMode_btnFlag (m : Mode) : (enterMode m s).btnFlag = s.btnFlag := rfl
@[simp] theorem enterMode_key (m : Mode) : (enterMode m s).key = s.key := rfl
@[simp] theorem enterMode_accLine (m : Mode) : (enterMode m s).accLine = s.accLine := rfl
@[simp] theorem enterMode_accRect (m : Mode) : (enterMode m s).accRect = s.accRect := rfl
@[simp] theorem enterMode_accTri (m : Mode) : (enterMode m s).accTri = s.accTri := rfl
@[simp] theorem enterMode_seq (m : Mode) : (enterMode m s).seq = s.seq := rfl
@[simp] theorem enterMode_axisI (m : Mode) : (enterMode m s).axisI = s.axisI := rfl
@[simp] theorem enterMode_colI (m : Mode) : (enterMode m s).colI = s.colI := rfl
@[simp] theorem enterMode_rowI (m : Mode) : (enterMode m s).rowI = s.rowI := rfl
@[simp] theorem enterMode_pairI (m : Mode) : (enterMode m s).pairI = s.pairI := rfl
@[simp] theorem enterMode_colmI (m : Mode) : (enterMode m s).colmI = s.colmI := rfl
@[simp] theorem enterMode_scanMask (m : Mode) : (enterMode m s).scanMask = s.scanMask := rfl
@[simp] theorem enterMode_scanHit (m : Mode) : (enterMode m s).scanHit = s.scanHit := rfl
@[simp] theorem enterMode_sample (m : Mode) : (enterMode m s).sample = s.sample := rfl
@[simp] theorem enterMode_fresh (m : Mode) : (enterMode m s).fresh = s.fresh := rfl
@[simp] theorem enterMode_movementDue (m : Mode) : (enterMode m s).movementDue = s.movementDue := rfl
@[simp] theorem enterMode_conv (m : Mode) : (enterMode m s).conv = s.conv := rfl
@[simp] theorem enterMode_timerDiv (m : Mode) : (enterMode m s).timerDiv = s.timerDiv := rfl
@[simp] theorem enterMode_timerCnt (m : Mode) : (enterMode m s).timerCnt = s.timerCnt := rfl
@[simp] theorem enterMode_oe (m : Mode) : (enterMode m s).oe = s.oe := rfl
@[simp] theorem enterMode_lat (m : Mode) : (enterMode m s).lat = s.lat := rfl
@[simp] theorem enterMode_clk (m : Mode) : (enterMode m s).clk = s.clk := rfl
@[simp] theorem enterMode_busUpper (m : Mode) : (enterMode m s).busUpper = s.busUpper := rfl
@[simp] theorem enterMode_busLower (m : Mode) : (enterMode m s).busLower = s.busLower := rfl
@[simp] theorem enterMode_rowAddr (m : Mode) : (enterMode m s).rowAddr = s.rowAddr := rfl
@[simp] theorem enterMode_colDrive (m : Mode) : (enterMode m s).colDrive = s.colDrive := rfl
@[simp] theorem enterMode_fb (m : Mode) : (enterMode m s).fb = s.fb := rfl
@[simp] theorem enterMode_adcIn (m : Mode) : (enterMode m s).adcIn = s.adcIn := rfl
@[simp] theorem enterMode_button (m : Mode) : (enterMode m s).button = s.button := rfl
@[simp] theorem enterMode_keysDown (m : Mode) : (enterMode m s).keysDown = s.keysDown := rfl
@[simp] theorem enterMode_moves (m : Mode) : (enterMode m s).moves = s.moves := rfl
@[simp] theorem enterMode_trace (m : Mode) : (enterMode m s).trace = s.trace := rfl

/-! ### `setDrawColor` -/

@[simp] theorem setDrawColor_cfg (n : BitVec 4) : (setDrawColor n s).cfg = s.cfg := rfl
@[simp] theorem setDrawColor_cur (n : BitVec 4) : (setDrawColor n s).cur = s.cur := rfl
@[simp] theorem setDrawColor_prev (n : BitVec 4) : (setDrawColor n s).prev = s.prev := rfl
@[simp] theorem setDrawColor_prevColor (n : BitVec 4) : (setDrawColor n s).prevColor = s.prevColor := rfl
@[simp] theorem setDrawColor_blinkCnt (n : BitVec 4) : (setDrawColor n s).blinkCnt = s.blinkCnt := rfl
@[simp] theorem setDrawColor_blinkOn (n : BitVec 4) : (setDrawColor n s).blinkOn = s.blinkOn := rfl
@[simp] theorem setDrawColor_mode (n : BitVec 4) : (setDrawColor n s).mode = s.mode := rfl
@[simp] theorem setDrawColor_sel (n : BitVec 4) : (setDrawColor n s).sel = s.sel := rfl
@[simp] theorem setDrawColor_drawColor (n : BitVec 4) : (setDrawColor n s).drawColor = paletteColor s.cfg n := rfl
@[simp] theorem setDrawColor_joy (n : BitVec 4) : (setDrawColor n s).joy = s.joy := rfl
@[simp] theorem setDrawColor_btnPrev (n : BitVec 4) : (setDrawColor n s).btnPrev = s.btnPrev := rfl
@[simp] theorem setDrawColor_btnFlag (n : BitVec 4) : (setDrawColor n s).btnFlag = s.btnFlag := rfl
@[simp] theorem setDrawColor_key (n : BitVec 4) : (setDrawColor n s).key = s.key := rfl
@[simp] theorem setDrawColor_accLine (n : BitVec 4) : (setDrawColor n s).accLine = s.accLine := rfl
@[simp] theorem setDrawColor_accRect (n : BitVec 4) : (setDrawColor n s).accRect = s.accRect := rfl
@[simp] theorem setDrawColor_accTri (n : BitVec 4) : (setDrawColor n s).accTri = s.accTri := rfl
@[simp] theorem setDrawColor_seq (n : BitVec 4) : (setDrawColor n s).seq = s.seq := rfl
@[simp] theorem setDrawColor_axisI (n : BitVec 4) : (setDrawColor n s).axisI = s.axisI := rfl
@[simp] theorem setDrawColor_colI (n : BitVec 4) : (setDrawColor n s).colI = s.colI := rfl
@[simp] theorem setDrawColor_rowI (n : BitVec 4) : (setDrawColor n s).rowI = s.rowI := rfl
@[simp] theorem setDrawColor_pairI (n : BitVec 4) : (setDrawColor n s).pairI = s.pairI := rfl
@[simp] theorem setDrawColor_colmI (n : BitVec 4) : (setDrawColor n s).colmI = s.colmI := rfl
@[simp] theorem setDrawColor_scanMask (n : BitVec 4) : (setDrawColor n s).scanMask = s.scanMask := rfl
@[simp] theorem setDrawColor_scanHit (n : BitVec 4) : (setDrawColor n s).scanHit = s.scanHit := rfl
@[simp] theorem setDrawColor_sample (n : BitVec 4) : (setDrawColor n s).sample = s.sample := rfl
@[simp] theorem setDrawColor_fresh (n : BitVec 4) : (setDrawColor n s).fresh = s.fresh := rfl
@[simp] theorem setDrawColor_movementDue (n : BitVec 4) : (setDrawColor n s).movementDue = s.movementDue := rfl
@[simp] theorem setDrawColor_conv (n : BitVec 4) : (setDrawColor n s).conv = s.conv := rfl
@[simp] theorem setDrawColor_timerDiv (n : BitVec 4) : (setDrawColor n s).timerDiv = s.timerDiv := rfl
@[simp] theorem setDrawColor_timerCnt (n : BitVec 4) : (setDrawColor n s).timerCnt = s.timerCnt := rfl
@[simp] theorem setDrawColor_oe (n : BitVec 4) : (setDrawColor n s).oe = s.oe := rfl
@[simp] theorem setDrawColor_lat (n : BitVec 4) : (setDrawColor n s).lat = s.lat := rfl
@[simp] theorem setDrawColor_clk (n : BitVec 4) : (setDrawColor n s).clk = s.clk := rfl
@[simp] theorem setDrawColor_busUpper (n : BitVec 4) : (setDrawColor n s).busUpper = s.busUpper := rfl
@[simp] theorem setDrawColor_busLower (n : BitVec 4) : (setDrawColor n s).busLower = s.busLower := rfl
@[simp] theorem setDrawColor_rowAddr (n : BitVec 4) : (setDrawColor n s).rowAddr = s.rowAddr := rfl
@[simp] theorem setDrawColor_colDrive (n : BitVec 4) : (setDrawColor n s).colDrive = s.colDrive := rfl
@[simp] theorem setDrawColor_fb (n : BitVec 4) : (setDrawColor n s).fb = s.fb := rfl
@[simp] theorem setDrawColor_adcIn (n : BitVec 4) : (setDrawColor n s).adcIn = s.adcIn := rfl
@[simp] theorem setDrawColor_button (n : BitVec 4) : (setDrawColor n s).button = s.button := rfl
@[simp] theorem setDrawColor_keysDown (n : BitVec 4) : (setDrawColor n s).keysDown = s.keysDown := rfl
@[simp] theorem setDrawColor_moves (n : BitVec 4) : (setDrawColor n s).moves = s.moves := rfl
@[simp] theorem setDrawColor_trace (n : BitVec 4) : (setDrawColor n s).trace = s.trace := rfl

/-! ### `fillOnce` -/

@[simp] theorem fillOnce_cfg (n : BitVec 4) : (fillOnce n s).cfg = s.cfg := rfl
@[simp] theorem fillOnce_cur (n : BitVec 4) : (fillOnce n s).cur = s.cur := rfl
@[simp] theorem fillOnce_prev (n : BitVec 4) : (fillOnce n s).prev = s.prev := rfl
@[simp] theorem fillOnce_prevColor (n : BitVec 4) : (fillOnce n s).prevColor = s.prevColor := rfl
@[simp] theorem fillOnce_blinkCnt (n : BitVec 4) : (fillOnce n s).blinkCnt = s.blinkCnt := rfl
@[simp] theorem fillOnce_blinkOn (n : BitVec 4) : (fillOnce n s).blinkOn = s.blinkOn := rfl
@[simp] theorem fillOnce_mode (n : BitVec 4) : (fillOnce n s).mode = s.mode := rfl
@[simp] theorem fillOnce_sel (n : BitVec 4) : (fillOnce n s).sel = selNone := rfl
@[simp] theorem fillOnce_drawColor (n : BitVec 4) : (fillOnce n s).drawColor = s.drawColor := rfl
@[simp] theorem fillOnce_joy (n : BitVec 4) : (fillOnce n s).joy = s.joy := rfl
@[simp] theorem fillOnce_btnPrev (n : BitVec 4) : (fillOnce n s).btnPrev = s.btnPrev := rfl
@[simp] theorem fillOnce_btnFlag (n : BitVec 4) : (fillOnce n s).btnFlag = s.btnFlag := rfl
@[simp] theorem fillOnce_key (n : BitVec 4) : (fillOnce n s).key = s.key := rfl
@[simp] theorem fillOnce_accLine (n : BitVec 4) : (fillOnce n s).accLine = s.accLine := rfl
@[simp] theorem fillOnce_accRect (n : BitVec 4) : (fillOnce n s).accRect = s.accRect := rfl
@[simp] theorem fillOnce_accTri (n : BitVec 4) : (fillOnce n s).accTri = s.accTri := rfl
@[simp] theorem fillOnce_seq (n : BitVec 4) : (fillOnce n s).seq = s.seq := rfl
@[simp] theorem fillOnce_axisI (n : BitVec 4) : (fillOnce n s).axisI = s.axisI := rfl
@[simp] theorem fillOnce_colI (n : BitVec 4) : (fillOnce n s).colI = s.colI := rfl
@[simp] theorem fillOnce_rowI (n : BitVec 4) : (fillOnce n s).rowI = s.rowI := rfl
@[simp] theorem fillOnce_pairI (n : BitVec 4) : (fillOnce n s).pairI = s.pairI := rfl
@[simp] theorem fillOnce_colmI (n : BitVec 4) : (fillOnce n s).colmI = s.colmI := rfl
@[simp] theorem fillOnce_scanMask (n : BitVec 4) : (fillOnce n s).scanMask = s.scanMask := rfl
@[simp] theorem fillOnce_scanHit (n : BitVec 4) : (fillOnce n s).scanHit = s.scanHit := rfl
@[simp] theorem fillOnce_sample (n : BitVec 4) : (fillOnce n s).sample = s.sample := rfl
@[simp] theorem fillOnce_fresh (n : BitVec 4) : (fillOnce n s).fresh = s.fresh := rfl
@[simp] theorem fillOnce_movementDue (n : BitVec 4) : (fillOnce n s).movementDue = s.movementDue := rfl
@[simp] theorem fillOnce_conv (n : BitVec 4) : (fillOnce n s).conv = s.conv := rfl
@[simp] theorem fillOnce_timerDiv (n : BitVec 4) : (fillOnce n s).timerDiv = s.timerDiv := rfl
@[simp] theorem fillOnce_timerCnt (n : BitVec 4) : (fillOnce n s).timerCnt = s.timerCnt := rfl
@[simp] theorem fillOnce_oe (n : BitVec 4) : (fillOnce n s).oe = s.oe := rfl
@[simp] theorem fillOnce_lat (n : BitVec 4) : (fillOnce n s).lat = s.lat := rfl
@[simp] theorem fillOnce_clk (n : BitVec 4) : (fillOnce n s).clk = s.clk := rfl
@[simp] theorem fillOnce_busUpper (n : BitVec 4) : (fillOnce n s).busUpper = s.busUpper := rfl
@[simp] theorem fillOnce_busLower (n : BitVec 4) : (fillOnce n s).busLower = s.busLower := rfl
@[simp] theorem fillOnce_rowAddr (n : BitVec 4) : (fillOnce n s).rowAddr = s.rowAddr := rfl
@[simp] theorem fillOnce_colDrive (n : BitVec 4) : (fillOnce n s).colDrive = s.colDrive := rfl
@[simp] theorem fillOnce_fb (n : BitVec 4) : (fillOnce n s).fb = Memory.buildFrom (fun _ => paletteColor s.cfg n) 0 (cellCount s.cfg) := rfl
@[simp] theorem fillOnce_adcIn (n : BitVec 4) : (fillOnce n s).adcIn = s.adcIn := rfl
@[simp] theorem fillOnce_button (n : BitVec 4) : (fillOnce n s).button = s.button := rfl
@[simp] theorem fillOnce_keysDown (n : BitVec 4) : (fillOnce n s).keysDown = s.keysDown := rfl
@[simp] theorem fillOnce_moves (n : BitVec 4) : (fillOnce n s).moves = s.moves := rfl
@[simp] theorem fillOnce_trace (n : BitVec 4) : (fillOnce n s).trace = s.trace := rfl

/-! ### `setDivisor` -/

@[simp] theorem setDivisor_cfg (n : BitVec 4) : (setDivisor n s).cfg = s.cfg := rfl
@[simp] theorem setDivisor_cur (n : BitVec 4) : (setDivisor n s).cur = s.cur := rfl
@[simp] theorem setDivisor_prev (n : BitVec 4) : (setDivisor n s).prev = s.prev := rfl
@[simp] theorem setDivisor_prevColor (n : BitVec 4) : (setDivisor n s).prevColor = s.prevColor := rfl
@[simp] theorem setDivisor_blinkCnt (n : BitVec 4) : (setDivisor n s).blinkCnt = s.blinkCnt := rfl
@[simp] theorem setDivisor_blinkOn (n : BitVec 4) : (setDivisor n s).blinkOn = s.blinkOn := rfl
@[simp] theorem setDivisor_mode (n : BitVec 4) : (setDivisor n s).mode = s.mode := rfl
@[simp] theorem setDivisor_sel (n : BitVec 4) : (setDivisor n s).sel = s.sel := rfl
@[simp] theorem setDivisor_drawColor (n : BitVec 4) : (setDivisor n s).drawColor = s.drawColor := rfl
@[simp] theorem setDivisor_joy (n : BitVec 4) : (setDivisor n s).joy = s.joy := rfl
@[simp] theorem setDivisor_btnPrev (n : BitVec 4) : (setDivisor n s).btnPrev = s.btnPrev := rfl
@[simp] theorem setDivisor_btnFlag (n : BitVec 4) : (setDivisor n s).btnFlag = s.btnFlag := rfl
@[simp] theorem setDivisor_key (n : BitVec 4) : (setDivisor n s).key = s.key := rfl
@[simp] theorem setDivisor_accLine (n : BitVec 4) : (setDivisor n s).accLine = s.accLine := rfl
@[simp] theorem setDivisor_accRect (n : BitVec 4) : (setDivisor n s).accRect = s.accRect := rfl
@[simp] theorem setDivisor_accTri (n : BitVec 4) : (setDivisor n s).accTri = s.accTri := rfl
@[simp] theorem setDivisor_seq (n : BitVec 4) : (setDivisor n s).seq = s.seq := rfl
@[simp] theorem setDivisor_axisI (n : BitVec 4) : (setDivisor n s).axisI = s.axisI := rfl
@[simp] theorem setDivisor_colI (n : BitVec 4) : (setDivisor n s).colI = s.colI := rfl
@[simp] theorem setDivisor_rowI (n : BitVec 4) : (setDivisor n s).rowI = s.rowI := rfl
@[simp] theorem setDivisor_pairI (n : BitVec 4) : (setDivisor n s).pairI = s.pairI := rfl
@[simp] theorem setDivisor_colmI (n : BitVec 4) : (setDivisor n s).colmI = s.colmI := rfl
@[simp] theorem setDivisor_scanMask (n : BitVec 4) : (setDivisor n s).scanMask = s.scanMask := rfl
@[simp] theorem setDivisor_scanHit (n : BitVec 4) : (setDivisor n s).scanHit = s.scanHit := rfl
@[simp] theorem setDivisor_sample (n : BitVec 4) : (setDivisor n s).sample = s.sample := rfl
@[simp] theorem setDivisor_fresh (n : BitVec 4) : (setDivisor n s).fresh = s.fresh := rfl
@[simp] theorem setDivisor_movementDue (n : BitVec 4) : (setDivisor n s).movementDue = s.movementDue := rfl
@[simp] theorem setDivisor_conv (n : BitVec 4) : (setDivisor n s).conv = s.conv := rfl
@[simp] theorem setDivisor_timerDiv (n : BitVec 4) : (setDivisor n s).timerDiv = divisorOf s.cfg n := rfl
@[simp] theorem setDivisor_timerCnt (n : BitVec 4) : (setDivisor n s).timerCnt = s.timerCnt := rfl
@[simp] theorem setDivisor_oe (n : BitVec 4) : (setDivisor n s).oe = s.oe := rfl
@[simp] theorem setDivisor_lat (n : BitVec 4) : (setDivisor n s).lat = s.lat := rfl
@[simp] theorem setDivisor_clk (n : BitVec 4) : (setDivisor n s).clk = s.clk := rfl
@[simp] theorem setDivisor_busUpper (n : BitVec 4) : (setDivisor n s).busUpper = s.busUpper := rfl
@[simp] theorem setDivisor_busLower (n : BitVec 4) : (setDivisor n s).busLower = s.busLower := rfl
@[simp] theorem setDivisor_rowAddr (n : BitVec 4) : (setDivisor n s).rowAddr = s.rowAddr := rfl
@[simp] theorem setDivisor_colDrive (n : BitVec 4) : (setDivisor n s).colDrive = s.colDrive := rfl
@[simp] theorem setDivisor_fb (n : BitVec 4) : (setDivisor n s).fb = s.fb := rfl
@[simp] theorem setDivisor_adcIn (n : BitVec 4) : (setDivisor n s).adcIn = s.adcIn := rfl
@[simp] theorem setDivisor_button (n : BitVec 4) : (setDivisor n s).button = s.button := rfl
@[simp] theorem setDivisor_keysDown (n : BitVec 4) : (setDivisor n s).keysDown = s.keysDown := rfl
@[simp] theorem setDivisor_moves (n : BitVec 4) : (setDivisor n s).moves = s.moves := rfl
@[simp] theorem setDivisor_trace (n : BitVec 4) : (setDivisor n s).trace = s.trace := rfl

/-! ### `consumeButton` -/

@[simp] theorem consumeButton_cfg : (consumeButton s).cfg = s.cfg := rfl
@[simp] theorem consumeButton_cur : (consumeButton s).cur = s.cur := rfl
@[simp] theorem consumeButton_prev : (consumeButton s).prev = s.prev := rfl
@[simp] theorem consumeButton_prevColor : (consumeButton s).prevColor = s.prevColor := rfl
@[simp] theorem consumeButton_blinkCnt : (consumeButton s).blinkCnt = s.blinkCnt := rfl
@[simp] theorem consumeButton_blinkOn : (consumeButton s).blinkOn = s.blinkOn := rfl
@[simp] theorem consumeButton_mode : (consumeButton s).mode = s.mode := rfl
@[simp] theorem consumeButton_sel : (consumeButton s).sel = s.sel := rfl
@[simp] theorem consumeButton_drawColor : (consumeButton s).drawColor = s.drawColor := rfl
@[simp] theorem consumeButton_joy : (consumeButton s).joy = s.joy := rfl
@[simp] theorem consumeButton_btnPrev : (consumeButton s).btnPrev = s.btnPrev := rfl
@[simp] theorem consumeButton_btnFlag : (consumeButton s).btnFlag = false := rfl
@[simp] theorem consumeButton_key : (consumeButton s).key = s.key := rfl
@[simp] theorem consumeButton_accLine : (consumeButton s).accLine = s.accLine := rfl
@[simp] theorem consumeButton_accRect : (consumeButton s).accRect = s.accRect := rfl
@[simp] theorem consumeButton_accTri : (consumeButton s).accTri = s.accTri := rfl
@[simp] theorem consumeButton_seq : (consumeButton s).seq = s.seq := rfl
@[simp] theorem consumeButton_axisI : (consumeButton s).axisI = s.axisI := rfl
@[simp] theorem consumeButton_colI : (consumeButton s).colI = s.colI := rfl
@[simp] theorem consumeButton_rowI : (consumeButton s).rowI = s.rowI := rfl
@[simp] theorem consumeButton_pairI : (consumeButton s).pairI = s.pairI := rfl
@[simp] theorem consumeButton_colmI : (consumeButton s).colmI = s.colmI := rfl
@[simp] theorem consumeButton_scanMask : (consumeButton s).scanMask = s.scanMask := rfl
@[simp] theorem consumeButton_scanHit : (consumeButton s).scanHit = s.scanHit := rfl
@[simp] theorem consumeButton_sample : (consumeButton s).sample = s.sample := rfl
@[simp] theorem consumeButton_fresh : (consumeButton s).fresh = s.fresh := rfl
@[simp] theorem consumeButton_movementDue : (consumeButton s).movementDue = s.movementDue := rfl
@[simp] theorem consumeButton_conv : (consumeButton s).conv = s.conv := rfl
@[simp] theorem consumeButton_timerDiv : (consumeButton s).timerDiv = s.timerDiv := rfl
@[simp] theorem consumeButton_timerCnt : (consumeButton s).timerCnt = s.timerCnt := rfl
@[simp] theorem consumeButton_oe : (consumeButton s).oe = s.oe := rfl
@[simp] theorem consumeButton_lat : (consumeButton s).lat = s.lat := rfl
@[simp] theorem consumeButton_clk : (consumeButton s).clk = s.clk := rfl
@[simp] theorem consumeButton_busUpper : (consumeButton s).busUpper = s.busUpper := rfl
@[simp] theorem consumeButton_busLower : (consumeButton s).busLower = s.busLower := rfl
@[simp] theorem consumeButton_rowAddr : (consumeButton s).rowAddr = s.rowAddr := rfl
@[simp] theorem consumeButton_colDrive : (consumeButton s).colDrive = s.colDrive := rfl
@[simp] theorem consumeButton_fb : (consumeButton s).fb = s.fb := rfl
@[simp] theorem consumeButton_adcIn : (consumeButton s).adcIn = s.adcIn := rfl
@[simp] theorem consumeButton_button : (consumeButton s).button = s.button := rfl
@[simp] theorem consumeButton_keysDown : (consumeButton s).keysDown = s.keysDown := rfl
@[simp] theorem consumeButton_moves : (consumeButton s).moves = s.moves := rfl
@[simp] theorem consumeButton_trace : (consumeButton s).trace = s.trace := rfl

/-! ### `sampleButton` -/

@[simp] theorem sampleButton_cfg : (sampleButton s).cfg = s.cfg := rfl
@[simp] theorem sampleButton_cur : (sampleButton s).cur = s.cur := rfl
@[simp] theorem sampleButton_prev : (sampleButton s).prev = s.prev := rfl
@[simp] theorem sampleButton_prevColor : (sampleButton s).prevColor = s.prevColor := rfl
@[simp] theorem sampleButton_blinkCnt : (sampleButton s).blinkCnt = s.blinkCnt := rfl
@[simp] theorem sampleButton_blinkOn : (sampleButton s).blinkOn = s.blinkOn := rfl
@[simp] theorem sampleButton_mode : (sampleButton s).mode = s.mode := rfl
@[simp] theorem sampleButton_sel : (sampleButton s).sel = s.sel := rfl
@[simp] theorem sampleButton_drawColor : (sampleButton s).drawColor = s.drawColor := rfl
@[simp] theorem sampleButton_joy : (sampleButton s).joy = s.joy := rfl
@[simp] theorem sampleButton_btnPrev : (sampleButton s).btnPrev = s.button := rfl
@[simp] theorem sampleButton_btnFlag : (sampleButton s).btnFlag = (s.btnFlag || (s.button && !s.btnPrev)) := rfl
@[simp] theorem sampleButton_key : (sampleButton s).key = s.key := rfl
@[simp] theorem sampleButton_accLine : (sampleButton s).accLine = s.accLine := rfl
@[simp] theorem sampleButton_accRect : (sampleButton s).accRect = s.accRect := rfl
@[simp] theorem sampleButton_accTri : (sampleButton s).accTri = s.accTri := rfl
@[simp] theorem sampleButton_seq : (sampleButton s).seq = s.seq := rfl
@[simp] theorem sampleButton_axisI : (sampleButton s).axisI = s.axisI := rfl
@[simp] theorem sampleButton_colI : (sampleButton s).colI = s.colI := rfl
@[simp] theorem sampleButton_rowI : (sampleButton s).rowI = s.rowI := rfl
@[simp] theorem sampleButton_pairI : (sampleButton s).pairI = s.pairI := rfl
@[simp] theorem sampleButton_colmI : (sampleButton s).colmI = s.colmI := rfl
@[simp] theorem sampleButton_scanMask : (sampleButton s).scanMask = s.scanMask := rfl
@[simp] theorem sampleButton_scanHit : (sampleButton s).scanHit = s.scanHit := rfl
@[simp] theorem sampleButton_sample : (sampleButton s).sample = s.sample := rfl
@[simp] theorem sampleButton_fresh : (sampleButton s).fresh = s.fresh := rfl
@[simp] theorem sampleButton_movementDue : (sampleButton s).movementDue = s.movementDue := rfl
@[simp] theorem sampleButton_conv : (sampleButton s).conv = s.conv := rfl
@[simp] theorem sampleButton_timerDiv : (sampleButton s).timerDiv = s.timerDiv := rfl
@[simp] theorem sampleButton_timerCnt : (sampleButton s).timerCnt = s.timerCnt := rfl
@[simp] theorem sampleButton_oe : (sampleButton s).oe = s.oe := rfl
@[simp] theorem sampleButton_lat : (sampleButton s).lat = s.lat := rfl
@[simp] theorem sampleButton_clk : (sampleButton s).clk = s.clk := rfl
@[simp] theorem sampleButton_busUpper : (sampleButton s).busUpper = s.busUpper := rfl
@[simp] theorem sampleButton_busLower : (sampleButton s).busLower = s.busLower := rfl
@[simp] theorem sampleButton_rowAddr : (sampleButton s).rowAddr = s.rowAddr := rfl
@[simp] theorem sampleButton_colDrive : (sampleButton s).colDrive = s.colDrive := rfl
@[simp] theorem sampleButton_fb : (sampleButton s).fb = s.fb := rfl
@[simp] theorem sampleButton_adcIn : (sampleButton s).adcIn = s.adcIn := rfl
@[simp] theorem sampleButton_button : (sampleButton s).button = s.button := rfl
@[simp] theorem sampleButton_keysDown : (sampleButton s).keysDown = s.keysDown := rfl
@[simp] theorem sampleButton_moves : (sampleButton s).moves = s.moves := rfl
@[simp] theorem sampleButton_trace : (sampleButton s).trace = .btn s.button :: s.trace := rfl

/-! ### `clearFresh` -/

@[simp] theorem clearFresh_cfg (a : Axis) : (clearFresh a s).cfg = s.cfg := rfl
@[simp] theorem clearFresh_cur (a : Axis) : (clearFresh a s).cur = s.cur := rfl
@[simp] theorem clearFresh_prev (a : Axis) : (clearFresh a s).prev = s.prev := rfl
@[simp] theorem clearFresh_prevColor (a : Axis) : (clearFresh a s).prevColor = s.prevColor := rfl
@[simp] theorem clearFresh_blinkCnt (a : Axis) : (clearFresh a s).blinkCnt = s.blinkCnt := rfl
@[simp] theorem clearFresh_blinkOn (a : Axis) : (clearFresh a s).blinkOn = s.blinkOn := rfl
@[simp] theorem clearFresh_mode (a : Axis) : (clearFresh a s).mode = s.mode := rfl
@[simp] theorem clearFresh_sel (a : Axis) : (clearFresh a s).sel = s.sel := rfl
@[simp] theorem clearFresh_drawColor (a : Axis) : (clearFresh a s).drawColor = s.drawColor := rfl
@[simp] theorem clearFresh_joy (a : Axis) : (clearFresh a s).joy = s.joy := rfl
@[simp] theorem clearFresh_btnPrev (a : Axis) : (clearFresh a s).btnPrev = s.btnPrev := rfl
@[simp] theorem clearFresh_btnFlag (a : Axis) : (clearFresh a s).btnFlag = s.btnFlag := rfl
@[simp] theorem clearFresh_key (a : Axis) : (clearFresh a s).key = s.key := rfl
@[simp] theorem clearFresh_accLine (a : Axis) : (clearFresh a s).accLine = s.accLine := rfl
@[simp] theorem clearFresh_accRect (a : Axis) : (clearFresh a s).accRect = s.accRect := rfl
@[simp] theorem clearFresh_accTri (a : Axis) : (clearFresh a s).accTri = s.accTri := rfl
@[simp] theorem clearFresh_seq (a : Axis) : (clearFresh a s).seq = s.seq := rfl
@[simp] theorem clearFresh_axisI (a : Axis) : (clearFresh a s).axisI = s.axisI := rfl
@[simp] theorem clearFresh_colI (a : Axis) : (clearFresh a s).colI = s.colI := rfl
@[simp] theorem clearFresh_rowI (a : Axis) : (clearFresh a s).rowI = s.rowI := rfl
@[simp] theorem clearFresh_pairI (a : Axis) : (clearFresh a s).pairI = s.pairI := rfl
@[simp] theorem clearFresh_colmI (a : Axis) : (clearFresh a s).colmI = s.colmI := rfl
@[simp] theorem clearFresh_scanMask (a : Axis) : (clearFresh a s).scanMask = s.scanMask := rfl
@[simp] theorem clearFresh_scanHit (a : Axis) : (clearFresh a s).scanHit = s.scanHit := rfl
@[simp] theorem clearFresh_sample (a : Axis) : (clearFresh a s).sample = s.sample := rfl
@[simp] theorem clearFresh_fresh (a : Axis) : (clearFresh a s).fresh = s.fresh.set a false := rfl
@[simp] theorem clearFresh_movementDue (a : Axis) : (clearFresh a s).movementDue = s.movementDue := rfl
@[simp] theorem clearFresh_conv (a : Axis) : (clearFresh a s).conv = s.conv := rfl
@[simp] theorem clearFresh_timerDiv (a : Axis) : (clearFresh a s).timerDiv = s.timerDiv := rfl
@[simp] theorem clearFresh_timerCnt (a : Axis) : (clearFresh a s).timerCnt = s.timerCnt := rfl
@[simp] theorem clearFresh_oe (a : Axis) : (clearFresh a s).oe = s.oe := rfl
@[simp] theorem clearFresh_lat (a : Axis) : (clearFresh a s).lat = s.lat := rfl
@[simp] theorem clearFresh_clk (a : Axis) : (clearFresh a s).clk = s.clk := rfl
@[simp] theorem clearFresh_busUpper (a : Axis) : (clearFresh a s).busUpper = s.busUpper := rfl
@[simp] theorem clearFresh_busLower (a : Axis) : (clearFresh a s).busLower = s.busLower := rfl
@[simp] theorem clearFresh_rowAddr (a : Axis) : (clearFresh a s).rowAddr = s.rowAddr := rfl
@[simp] theorem clearFresh_colDrive (a : Axis) : (clearFresh a s).colDrive = s.colDrive := rfl
@[simp] theorem clearFresh_fb (a : Axis) : (clearFresh a s).fb = s.fb := rfl
@[simp] theorem clearFresh_adcIn (a : Axis) : (clearFresh a s).adcIn = s.adcIn := rfl
@[simp] theorem clearFresh_button (a : Axis) : (clearFresh a s).button = s.button := rfl
@[simp] theorem clearFresh_keysDown (a : Axis) : (clearFresh a s).keysDown = s.keysDown := rfl
@[simp] theorem clearFresh_moves (a : Axis) : (clearFresh a s).moves = s.moves := rfl
@[simp] theorem clearFresh_trace (a : Axis) : (clearFresh a s).trace = s.trace := rfl

/-! ### `clearMovementDue` -/

@[simp] theorem clearMovementDue_cfg : (clearMovementDue s).cfg = s.cfg := rfl
@[simp] theorem clearMovementDue_cur : (clearMovementDue s).cur = s.cur := rfl
@[simp] theorem clearMovementDue_prev : (clearMovementDue s).prev = s.prev := rfl
@[simp] theorem clearMovementDue_prevColor : (clearMovementDue s).prevColor = s.prevColor := rfl
@[simp] theorem clearMovementDue_blinkCnt : (clearMovementDue s).blinkCnt = s.blinkCnt := rfl
@[simp] theorem clearMovementDue_blinkOn : (clearMovementDue s).blinkOn = s.blinkOn := rfl
@[simp] theorem clearMovementDue_mode : (clearMovementDue s).mode = s.mode := rfl
@[simp] theorem clearMovementDue_sel : (clearMovementDue s).sel = s.sel := rfl
@[simp] theorem clearMovementDue_drawColor : (clearMovementDue s).drawColor = s.drawColor := rfl
@[simp] theorem clearMovementDue_joy : (clearMovementDue s).joy = s.joy := rfl
@[simp] theorem clearMovementDue_btnPrev : (clearMovementDue s).btnPrev = s.btnPrev := rfl
@[simp] theorem clearMovementDue_btnFlag : (clearMovementDue s).btnFlag = s.btnFlag := rfl
@[simp] theorem clearMovementDue_key : (clearMovementDue s).key = s.key := rfl
@[simp] theorem clearMovementDue_accLine : (clearMovementDue s).accLine = s.accLine := rfl
@[simp] theorem clearMovementDue_accRect : (clearMovementDue s).accRect = s.accRect := rfl
@[simp] theorem clearMovementDue_accTri : (clearMovementDue s).accTri = s.accTri := rfl
@[simp] theorem clearMovementDue_seq : (clearMovementDue s).seq = s.seq := rfl
@[simp] theorem clearMovementDue_axisI : (clearMovementDue s).axisI = s.axisI := rfl
@[simp] theorem clearMovementDue_colI : (clearMovementDue s).colI = s.colI := rfl
@[simp] theorem clearMovementDue_rowI : (clearMovementDue s).rowI = s.rowI := rfl
@[simp] theorem clearMovementDue_pairI : (clearMovementDue s).pairI = s.pairI := rfl
@[simp] theorem clearMovementDue_colmI : (clearMovementDue s).colmI = s.colmI := rfl
@[simp] theorem clearMovementDue_scanMask : (clearMovementDue s).scanMask = s.scanMask := rfl
@[simp] theorem clearMovementDue_scanHit : (clearMovementDue s).scanHit = s.scanHit := rfl
@[simp] theorem clearMovementDue_sample : (clearMovementDue s).sample = s.sample := rfl
@[simp] theorem clearMovementDue_fresh : (clearMovementDue s).fresh = s.fresh := rfl
@[simp] theorem clearMovementDue_movementDue : (clearMovementDue s).movementDue = false := rfl
@[simp] theorem clearMovementDue_conv : (clearMovementDue s).conv = s.conv := rfl
@[simp] theorem clearMovementDue_timerDiv : (clearMovementDue s).timerDiv = s.timerDiv := rfl
@[simp] theorem clearMovementDue_timerCnt : (clearMovementDue s).timerCnt = s.timerCnt := rfl
@[simp] theorem clearMovementDue_oe : (clearMovementDue s).oe = s.oe := rfl
@[simp] theorem clearMovementDue_lat : (clearMovementDue s).lat = s.lat := rfl
@[simp] theorem clearMovementDue_clk : (clearMovementDue s).clk = s.clk := rfl
@[simp] theorem clearMovementDue_busUpper : (clearMovementDue s).busUpper = s.busUpper := rfl
@[simp] theorem clearMovementDue_busLower : (clearMovementDue s).busLower = s.busLower := rfl
@[simp] theorem clearMovementDue_rowAddr : (clearMovementDue s).rowAddr = s.rowAddr := rfl
@[simp] theorem clearMovementDue_colDrive : (clearMovementDue s).colDrive = s.colDrive := rfl
@[simp] theorem clearMovementDue_fb : (clearMovementDue s).fb = s.fb := rfl
@[simp] theorem clearMovementDue_adcIn : (clearMovementDue s).adcIn = s.adcIn := rfl
@[simp] theorem clearMovementDue_button : (clearMovementDue s).button = s.button := rfl
@[simp] theorem clearMovementDue_keysDown : (clearMovementDue s).keysDown = s.keysDown := rfl
@[simp] theorem clearMovementDue_moves : (clearMovementDue s).moves = s.moves := rfl
@[simp] theorem clearMovementDue_trace : (clearMovementDue s).trace = s.trace := rfl

/-! ### `emit` -/

@[simp] theorem emit_cfg (e : Event) : (emit e s).cfg = s.cfg := rfl
@[simp] theorem emit_cur (e : Event) : (emit e s).cur = s.cur := rfl
@[simp] theorem emit_prev (e : Event) : (emit e s).prev = s.prev := rfl
@[simp] theorem emit_prevColor (e : Event) : (emit e s).prevColor = s.prevColor := rfl
@[simp] theorem emit_blinkCnt (e : Event) : (emit e s).blinkCnt = s.blinkCnt := rfl
@[simp] theorem emit_blinkOn (e : Event) : (emit e s).blinkOn = s.blinkOn := rfl
@[simp] theorem emit_mode (e : Event) : (emit e s).mode = s.mode := rfl
@[simp] theorem emit_sel (e : Event) : (emit e s).sel = s.sel := rfl
@[simp] theorem emit_drawColor (e : Event) : (emit e s).drawColor = s.drawColor := rfl
@[simp] theorem emit_joy (e : Event) : (emit e s).joy = s.joy := rfl
@[simp] theorem emit_btnPrev (e : Event) : (emit e s).btnPrev = s.btnPrev := rfl
@[simp] theorem emit_btnFlag (e : Event) : (emit e s).btnFlag = s.btnFlag := rfl
@[simp] theorem emit_key (e : Event) : (emit e s).key = s.key := rfl
@[simp] theorem emit_accLine (e : Event) : (emit e s).accLine = s.accLine := rfl
@[simp] theorem emit_accRect (e : Event) : (emit e s).accRect = s.accRect := rfl
@[simp] theorem emit_accTri (e : Event) : (emit e s).accTri = s.accTri := rfl
@[simp] theorem emit_seq (e : Event) : (emit e s).seq = s.seq := rfl
@[simp] theorem emit_axisI (e : Event) : (emit e s).axisI = s.axisI := rfl
@[simp] theorem emit_colI (e : Event) : (emit e s).colI = s.colI := rfl
@[simp] theorem emit_rowI (e : Event) : (emit e s).rowI = s.rowI := rfl
@[simp] theorem emit_pairI (e : Event) : (emit e s).pairI = s.pairI := rfl
@[simp] theorem emit_colmI (e : Event) : (emit e s).colmI = s.colmI := rfl
@[simp] theorem emit_scanMask (e : Event) : (emit e s).scanMask = s.scanMask := rfl
@[simp] theorem emit_scanHit (e : Event) : (emit e s).scanHit = s.scanHit := rfl
@[simp] theorem emit_sample (e : Event) : (emit e s).sample = s.sample := rfl
@[simp] theorem emit_fresh (e : Event) : (emit e s).fresh = s.fresh := rfl
@[simp] theorem emit_movementDue (e : Event) : (emit e s).movementDue = s.movementDue := rfl
@[simp] theorem emit_conv (e : Event) : (emit e s).conv = s.conv := rfl
@[simp] theorem emit_timerDiv (e : Event) : (emit e s).timerDiv = s.timerDiv := rfl
@[simp] theorem emit_timerCnt (e : Event) : (emit e s).timerCnt = s.timerCnt := rfl
@[simp] theorem emit_oe (e : Event) : (emit e s).oe = s.oe := rfl
@[simp] theorem emit_lat (e : Event) : (emit e s).lat = s.lat := rfl
@[simp] theorem emit_clk (e : Event) : (emit e s).clk = s.clk := rfl
@[simp] theorem emit_busUpper (e : Event) : (emit e s).busUpper = s.busUpper := rfl
@[simp] theorem emit_busLower (e : Event) : (emit e s).busLower = s.busLower := rfl
@[simp] theorem emit_rowAddr (e : Event) : (emit e s).rowAddr = s.rowAddr := rfl
@[simp] theorem emit_colDrive (e : Event) : (emit e s).colDrive = s.colDrive := rfl
@[simp] theorem emit_fb (e : Event) : (emit e s).fb = s.fb := rfl
@[simp] theorem emit_adcIn (e : Event) : (emit e s).adcIn = s.adcIn := rfl
@[simp] theorem emit_button (e : Event) : (emit e s).button = s.button := rfl
@[simp] theorem emit_keysDown (e : Event) : (emit e s).keysDown = s.keysDown := rfl
@[simp] theorem emit_moves (e : Event) : (emit e s).moves = s.moves := rfl
@[simp] theorem emit_trace (e : Event) : (emit e s).trace = e :: s.trace := rfl

/-! ### `startConversion` -/

@[simp] theorem startConversion_cfg (a : Axis) : (startConversion a s).cfg = s.cfg := rfl
@[simp] theorem startConversion_cur (a : Axis) : (startConversion a s).cur = s.cur := rfl
@[simp] theorem startConversion_prev (a : Axis) : (startConversion a s).prev = s.prev := rfl
@[simp] theorem startConversion_prevColor (a : Axis) : (startConversion a s).prevColor = s.prevColor := rfl
@[simp] theorem startConversion_blinkCnt (a : Axis) : (startConversion a s).blinkCnt = s.blinkCnt := rfl
@[simp] theorem startConversion_blinkOn (a : Axis) : (startConversion a s).blinkOn = s.blinkOn := rfl
@[simp] theorem startConversion_mode (a : Axis) : (startConversion a s).mode = s.mode := rfl
@[simp] theorem startConversion_sel (a : Axis) : (startConversion a s).sel = s.sel := rfl
@[simp] theorem startConversion_drawColor (a : Axis) : (startConversion a s).drawColor = s.drawColor := rfl
@[simp] theorem startConversion_joy (a : Axis) : (startConversion a s).joy = s.joy := rfl
@[simp] theorem startConversion_btnPrev (a : Axis) : (startConversion a s).btnPrev = s.btnPrev := rfl
@[simp] theorem startConversion_btnFlag (a : Axis) : (startConversion a s).btnFlag = s.btnFlag := rfl
@[simp] theorem startConversion_key (a : Axis) : (startConversion a s).key = s.key := rfl
@[simp] theorem startConversion_accLine (a : Axis) : (startConversion a s).accLine = s.accLine := rfl
@[simp] theorem startConversion_accRect (a : Axis) : (startConversion a s).accRect = s.accRect := rfl
@[simp] theorem startConversion_accTri (a : Axis) : (startConversion a s).accTri = s.accTri := rfl
@[simp] theorem startConversion_seq (a : Axis) : (startConversion a s).seq = s.seq := rfl
@[simp] theorem startConversion_axisI (a : Axis) : (startConversion a s).axisI = s.axisI := rfl
@[simp] theorem startConversion_colI (a : Axis) : (startConversion a s).colI = s.colI := rfl
@[simp] theorem startConversion_rowI (a : Axis) : (startConversion a s).rowI = s.rowI := rfl
@[simp] theorem startConversion_pairI (a : Axis) : (startConversion a s).pairI = s.pairI := rfl
@[simp] theorem startConversion_colmI (a : Axis) : (startConversion a s).colmI = s.colmI := rfl
@[simp] theorem startConversion_scanMask (a : Axis) : (startConversion a s).scanMask = s.scanMask := rfl
@[simp] theorem startConversion_scanHit (a : Axis) : (startConversion a s).scanHit = s.scanHit := rfl
@[simp] theorem startConversion_sample (a : Axis) : (startConversion a s).sample = s.sample := rfl
@[simp] theorem startConversion_fresh (a : Axis) : (startConversion a s).fresh = s.fresh := rfl
@[simp] theorem startConversion_movementDue (a : Axis) : (startConversion a s).movementDue = s.movementDue := rfl
@[simp] theorem startConversion_conv (a : Axis) : (startConversion a s).conv = s.conv.set a .busy := rfl
@[simp] theorem startConversion_timerDiv (a : Axis) : (startConversion a s).timerDiv = s.timerDiv := rfl
@[simp] theorem startConversion_timerCnt (a : Axis) : (startConversion a s).timerCnt = s.timerCnt := rfl
@[simp] theorem startConversion_oe (a : Axis) : (startConversion a s).oe = s.oe := rfl
@[simp] theorem startConversion_lat (a : Axis) : (startConversion a s).lat = s.lat := rfl
@[simp] theorem startConversion_clk (a : Axis) : (startConversion a s).clk = s.clk := rfl
@[simp] theorem startConversion_busUpper (a : Axis) : (startConversion a s).busUpper = s.busUpper := rfl
@[simp] theorem startConversion_busLower (a : Axis) : (startConversion a s).busLower = s.busLower := rfl
@[simp] theorem startConversion_rowAddr (a : Axis) : (startConversion a s).rowAddr = s.rowAddr := rfl
@[simp] theorem startConversion_colDrive (a : Axis) : (startConversion a s).colDrive = s.colDrive := rfl
@[simp] theorem startConversion_fb (a : Axis) : (startConversion a s).fb = s.fb := rfl
@[simp] theorem startConversion_adcIn (a : Axis) : (startConversion a s).adcIn = s.adcIn := rfl
@[simp] theorem startConversion_button (a : Axis) : (startConversion a s).button = s.button := rfl
@[simp] theorem startConversion_keysDown (a : Axis) : (startConversion a s).keysDown = s.keysDown := rfl
@[simp] theorem startConversion_moves (a : Axis) : (startConversion a s).moves = s.moves := rfl
@[simp] theorem startConversion_trace (a : Axis) : (startConversion a s).trace = .start a :: s.trace := rfl

/-! ### `driveColumn` -/

@[simp] theorem driveColumn_cfg (k : Fin 3) : (driveColumn k s).cfg = s.cfg := rfl
@[simp] theorem driveColumn_cur (k : Fin 3) : (driveColumn k s).cur = s.cur := rfl
@[simp] theorem driveColumn_prev (k : Fin 3) : (driveColumn k s).prev = s.prev := rfl
@[simp] theorem driveColumn_prevColor (k : Fin 3) : (driveColumn k s).prevColor = s.prevColor := rfl
@[simp] theorem driveColumn_blinkCnt (k : Fin 3) : (driveColumn k s).blinkCnt = s.blinkCnt := rfl
@[simp] theorem driveColumn_blinkOn (k : Fin 3) : (driveColumn k s).blinkOn = s.blinkOn := rfl
@[simp] theorem driveColumn_mode (k : Fin 3) : (driveColumn k s).mode = s.mode := rfl
@[simp] theorem driveColumn_sel (k : Fin 3) : (driveColumn k s).sel = s.sel := rfl
@[simp] theorem driveColumn_drawColor (k : Fin 3) : (driveColumn k s).drawColor = s.drawColor := rfl
@[simp] theorem driveColumn_joy (k : Fin 3) : (driveColumn k s).joy = s.joy := rfl
@[simp] theorem driveColumn_btnPrev (k : Fin 3) : (driveColumn k s).btnPrev = s.btnPrev := rfl
@[simp] theorem driveColumn_btnFlag (k : Fin 3) : (driveColumn k s).btnFlag = s.btnFlag := rfl
@[simp] theorem driveColumn_key (k : Fin 3) : (driveColumn k s).key = s.key := rfl
@[simp] theorem driveColumn_accLine (k : Fin 3) : (driveColumn k s).accLine = s.accLine := rfl
@[simp] theorem driveColumn_accRect (k : Fin 3) : (driveColumn k s).accRect = s.accRect := rfl
@[simp] theorem driveColumn_accTri (k : Fin 3) : (driveColumn k s).accTri = s.accTri := rfl
@[simp] theorem driveColumn_seq (k : Fin 3) : (driveColumn k s).seq = s.seq := rfl
@[simp] theorem driveColumn_axisI (k : Fin 3) : (driveColumn k s).axisI = s.axisI := rfl
@[simp] theorem driveColumn_colI (k : Fin 3) : (driveColumn k s).colI = s.colI := rfl
@[simp] theorem driveColumn_rowI (k : Fin 3) : (driveColumn k s).rowI = s.rowI := rfl
@[simp] theorem driveColumn_pairI (k : Fin 3) : (driveColumn k s).pairI = s.pairI := rfl
@[simp] theorem driveColumn_colmI (k : Fin 3) : (driveColumn k s).colmI = s.colmI := rfl
@[simp] theorem driveColumn_scanMask (k : Fin 3) : (driveColumn k s).scanMask = s.scanMask := rfl
@[simp] theorem driveColumn_scanHit (k : Fin 3) : (driveColumn k s).scanHit = s.scanHit := rfl
@[simp] theorem driveColumn_sample (k : Fin 3) : (driveColumn k s).sample = s.sample := rfl
@[simp] theorem driveColumn_fresh (k : Fin 3) : (driveColumn k s).fresh = s.fresh := rfl
@[simp] theorem driveColumn_movementDue (k : Fin 3) : (driveColumn k s).movementDue = s.movementDue := rfl
@[simp] theorem driveColumn_conv (k : Fin 3) : (driveColumn k s).conv = s.conv := rfl
@[simp] theorem driveColumn_timerDiv (k : Fin 3) : (driveColumn k s).timerDiv = s.timerDiv := rfl
@[simp] theorem driveColumn_timerCnt (k : Fin 3) : (driveColumn k s).timerCnt = s.timerCnt := rfl
@[simp] theorem driveColumn_oe (k : Fin 3) : (driveColumn k s).oe = s.oe := rfl
@[simp] theorem driveColumn_lat (k : Fin 3) : (driveColumn k s).lat = s.lat := rfl
@[simp] theorem driveColumn_clk (k : Fin 3) : (driveColumn k s).clk = s.clk := rfl
@[simp] theorem driveColumn_busUpper (k : Fin 3) : (driveColumn k s).busUpper = s.busUpper := rfl
@[simp] theorem driveColumn_busLower (k : Fin 3) : (driveColumn k s).busLower = s.busLower := rfl
@[simp] theorem driveColumn_rowAddr (k : Fin 3) : (driveColumn k s).rowAddr = s.rowAddr := rfl
@[simp] theorem driveColumn_colDrive (k : Fin 3) : (driveColumn k s).colDrive = s.colDrive.set k true := rfl
@[simp] theorem driveColumn_fb (k : Fin 3) : (driveColumn k s).fb = s.fb := rfl
@[simp] theorem driveColumn_adcIn (k : Fin 3) : (driveColumn k s).adcIn = s.adcIn := rfl
@[simp] theorem driveColumn_button (k : Fin 3) : (driveColumn k s).button = s.button := rfl
@[simp] theorem driveColumn_keysDown (k : Fin 3) : (driveColumn k s).keysDown = s.keysDown := rfl
@[simp] theorem driveColumn_moves (k : Fin 3) : (driveColumn k s).moves = s.moves := rfl
@[simp] theorem driveColumn_trace (k : Fin 3) : (driveColumn k s).trace = .columnOn k :: s.trace := rfl

/-! ### `releaseColumn` -/

@[simp] theorem releaseColumn_cfg (k : Fin 3) : (releaseColumn k s).cfg = s.cfg := rfl
@[simp] theorem releaseColumn_cur (k : Fin 3) : (releaseColumn k s).cur = s.cur := rfl
@[simp] theorem releaseColumn_prev (k : Fin 3) : (releaseColumn k s).prev = s.prev := rfl
@[simp] theorem releaseColumn_prevColor (k : Fin 3) : (releaseColumn k s).prevColor = s.prevColor := rfl
@[simp] theorem releaseColumn_blinkCnt (k : Fin 3) : (releaseColumn k s).blinkCnt = s.blinkCnt := rfl
@[simp] theorem releaseColumn_blinkOn (k : Fin 3) : (releaseColumn k s).blinkOn = s.blinkOn := rfl
@[simp] theorem releaseColumn_mode (k : Fin 3) : (releaseColumn k s).mode = s.mode := rfl
@[simp] theorem releaseColumn_sel (k : Fin 3) : (releaseColumn k s).sel = s.sel := rfl
@[simp] theorem releaseColumn_drawColor (k : Fin 3) : (releaseColumn k s).drawColor = s.drawColor := rfl
@[simp] theorem releaseColumn_joy (k : Fin 3) : (releaseColumn k s).joy = s.joy := rfl
@[simp] theorem releaseColumn_btnPrev (k : Fin 3) : (releaseColumn k s).btnPrev = s.btnPrev := rfl
@[simp] theorem releaseColumn_btnFlag (k : Fin 3) : (releaseColumn k s).btnFlag = s.btnFlag := rfl
@[simp] theorem releaseColumn_key (k : Fin 3) : (releaseColumn k s).key = s.key := rfl
@[simp] theorem releaseColumn_accLine (k : Fin 3) : (releaseColumn k s).accLine = s.accLine := rfl
@[simp] theorem releaseColumn_accRect (k : Fin 3) : (releaseColumn k s).accRect = s.accRect := rfl
@[simp] theorem releaseColumn_accTri (k : Fin 3) : (releaseColumn k s).accTri = s.accTri := rfl
@[simp] theorem releaseColumn_seq (k : Fin 3) : (releaseColumn k s).seq = s.seq := rfl
@[simp] theorem releaseColumn_axisI (k : Fin 3) : (releaseColumn k s).axisI = s.axisI := rfl
@[simp] theorem releaseColumn_colI (k : Fin 3) : (releaseColumn k s).colI = s.colI := rfl
@[simp] theorem releaseColumn_rowI (k : Fin 3) : (releaseColumn k s).rowI = s.rowI := rfl
@[simp] theorem releaseColumn_pairI (k : Fin 3) : (releaseColumn k s).pairI = s.pairI := rfl
@[simp] theorem releaseColumn_colmI (k : Fin 3) : (releaseColumn k s).colmI = s.colmI := rfl
@[simp] theorem releaseColumn_scanMask (k : Fin 3) : (releaseColumn k s).scanMask = s.scanMask := rfl
@[simp] theorem releaseColumn_scanHit (k : Fin 3) : (releaseColumn k s).scanHit = s.scanHit := rfl
@[simp] theorem releaseColumn_sample (k : Fin 3) : (releaseColumn k s).sample = s.sample := rfl
@[simp] theorem releaseColumn_fresh (k : Fin 3) : (releaseColumn k s).fresh = s.fresh := rfl
@[simp] theorem releaseColumn_movementDue (k : Fin 3) : (releaseColumn k s).movementDue = s.movementDue := rfl
@[simp] theorem releaseColumn_conv (k : Fin 3) : (releaseColumn k s).conv = s.conv := rfl
@[simp] theorem releaseColumn_timerDiv (k : Fin 3) : (releaseColumn k s).timerDiv = s.timerDiv := rfl
@[simp] theorem releaseColumn_timerCnt (k : Fin 3) : (releaseColumn k s).timerCnt = s.timerCnt := rfl
@[simp] theorem releaseColumn_oe (k : Fin 3) : (releaseColumn k s).oe = s.oe := rfl
@[simp] theorem releaseColumn_lat (k : Fin 3) : (releaseColumn k s).lat = s.lat := rfl
@[simp] theorem releaseColumn_clk (k : Fin 3) : (releaseColumn k s).clk = s.clk := rfl
@[simp] theorem releaseColumn_busUpper (k : Fin 3) : (releaseColumn k s).busUpper = s.busUpper := rfl
@[simp] theorem releaseColumn_busLower (k : Fin 3) : (releaseColumn k s).busLower = s.busLower := rfl
@[simp] theorem releaseColumn_rowAddr (k : Fin 3) : (releaseColumn k s).rowAddr = s.rowAddr := rfl
@[simp] theorem releaseColumn_colDrive (k : Fin 3) : (releaseColumn k s).colDrive = s.colDrive.set k false := rfl
@[simp] theorem releaseColumn_fb (k : Fin 3) : (releaseColumn k s).fb = s.fb := rfl
@[simp] theorem releaseColumn_adcIn (k : Fin 3) : (releaseColumn k s).adcIn = s.adcIn := rfl
@[simp] theorem releaseColumn_button (k : Fin 3) : (releaseColumn k s).button = s.button := rfl
@[simp] theorem releaseColumn_keysDown (k : Fin 3) : (releaseColumn k s).keysDown = s.keysDown := rfl
@[simp] theorem releaseColumn_moves (k : Fin 3) : (releaseColumn k s).moves = s.moves := rfl
@[simp] theorem releaseColumn_trace (k : Fin 3) : (releaseColumn k s).trace = .columnOff k :: s.trace := rfl

/-! ### `setOutputEnable` -/

@[simp] theorem setOutputEnable_cfg (b : Bool) : (setOutputEnable b s).cfg = s.cfg := rfl
@[simp] theorem setOutputEnable_cur (b : Bool) : (setOutputEnable b s).cur = s.cur := rfl
@[simp] theorem setOutputEnable_prev (b : Bool) : (setOutputEnable b s).prev = s.prev := rfl
@[simp] theorem setOutputEnable_prevColor (b : Bool) : (setOutputEnable b s).prevColor = s.prevColor := rfl
@[simp] theorem setOutputEnable_blinkCnt (b : Bool) : (setOutputEnable b s).blinkCnt = s.blinkCnt := rfl
@[simp] theorem setOutputEnable_blinkOn (b : Bool) : (setOutputEnable b s).blinkOn = s.blinkOn := rfl
@[simp] theorem setOutputEnable_mode (b : Bool) : (setOutputEnable b s).mode = s.mode := rfl
@[simp] theorem setOutputEnable_sel (b : Bool) : (setOutputEnable b s).sel = s.sel := rfl
@[simp] theorem setOutputEnable_drawColor (b : Bool) : (setOutputEnable b s).drawColor = s.drawColor := rfl
@[simp] theorem setOutputEnable_joy (b : Bool) : (setOutputEnable b s).joy = s.joy := rfl
@[simp] theorem setOutputEnable_btnPrev (b : Bool) : (setOutputEnable b s).btnPrev = s.btnPrev := rfl
@[simp] theorem setOutputEnable_btnFlag (b : Bool) : (setOutputEnable b s).btnFlag = s.btnFlag := rfl
@[simp] theorem setOutputEnable_key (b : Bool) : (setOutputEnable b s).key = s.key := rfl
@[simp] theorem setOutputEnable_accLine (b : Bool) : (setOutputEnable b s).accLine = s.accLine := rfl
@[simp] theorem setOutputEnable_accRect (b : Bool) : (setOutputEnable b s).accRect = s.accRect := rfl
@[simp] theorem setOutputEnable_accTri (b : Bool) : (setOutputEnable b s).accTri = s.accTri := rfl
@[simp] theorem setOutputEnable_seq (b : Bool) : (setOutputEnable b s).seq = s.seq := rfl
@[simp] theorem setOutputEnable_axisI (b : Bool) : (setOutputEnable b s).axisI = s.axisI := rfl
@[simp] theorem setOutputEnable_colI (b : Bool) : (setOutputEnable b s).colI = s.colI := rfl
@[simp] theorem setOutputEnable_rowI (b : Bool) : (setOutputEnable b s).rowI = s.rowI := rfl
@[simp] theorem setOutputEnable_pairI (b : Bool) : (setOutputEnable b s).pairI = s.pairI := rfl
@[simp] theorem setOutputEnable_colmI (b : Bool) : (setOutputEnable b s).colmI = s.colmI := rfl
@[simp] theorem setOutputEnable_scanMask (b : Bool) : (setOutputEnable b s).scanMask = s.scanMask := rfl
@[simp] theorem setOutputEnable_scanHit (b : Bool) : (setOutputEnable b s).scanHit = s.scanHit := rfl
@[simp] theorem setOutputEnable_sample (b : Bool) : (setOutputEnable b s).sample = s.sample := rfl
@[simp] theorem setOutputEnable_fresh (b : Bool) : (setOutputEnable b s).fresh = s.fresh := rfl
@[simp] theorem setOutputEnable_movementDue (b : Bool) : (setOutputEnable b s).movementDue = s.movementDue := rfl
@[simp] theorem setOutputEnable_conv (b : Bool) : (setOutputEnable b s).conv = s.conv := rfl
@[simp] theorem setOutputEnable_timerDiv (b : Bool) : (setOutputEnable b s).timerDiv = s.timerDiv := rfl
@[simp] theorem setOutputEnable_timerCnt (b : Bool) : (setOutputEnable b s).timerCnt = s.timerCnt := rfl
@[simp] theorem setOutputEnable_oe (b : Bool) : (setOutputEnable b s).oe = b := rfl
@[simp] theorem setOutputEnable_lat (b : Bool) : (setOutputEnable b s).lat = s.lat := rfl
@[simp] theorem setOutputEnable_clk (b : Bool) : (setOutputEnable b s).clk = s.clk := rfl
@[simp] theorem setOutputEnable_busUpper (b : Bool) : (setOutputEnable b s).busUpper = s.busUpper := rfl
@[simp] theorem setOutputEnable_busLower (b : Bool) : (setOutputEnable b s).busLower = s.busLower := rfl
@[simp] theorem setOutputEnable_rowAddr (b : Bool) : (setOutputEnable b s).rowAddr = s.rowAddr := rfl
@[simp] theorem setOutputEnable_colDrive (b : Bool) : (setOutputEnable b s).colDrive = s.colDrive := rfl
@[simp] theorem setOutputEnable_fb (b : Bool) : (setOutputEnable b s).fb = s.fb := rfl
@[simp] theorem setOutputEnable_adcIn (b : Bool) : (setOutputEnable b s).adcIn = s.adcIn := rfl
@[simp] theorem setOutputEnable_button (b : Bool) : (setOutputEnable b s).button = s.button := rfl
@[simp] theorem setOutputEnable_keysDown (b : Bool) : (setOutputEnable b s).keysDown = s.keysDown := rfl
@[simp] theorem setOutputEnable_moves (b : Bool) : (setOutputEnable b s).moves = s.moves := rfl
@[simp] theorem setOutputEnable_trace (b : Bool) : (setOutputEnable b s).trace = .outputEnable b :: s.trace := rfl

/-! ### `setLatch` -/

@[simp] theorem setLatch_cfg (b : Bool) : (setLatch b s).cfg = s.cfg := rfl
@[simp] theorem setLatch_cur (b : Bool) : (setLatch b s).cur = s.cur := rfl
@[simp] theorem setLatch_prev (b : Bool) : (setLatch b s).prev = s.prev := rfl
@[simp] theorem setLatch_prevColor (b : Bool) : (setLatch b s).prevColor = s.prevColor := rfl
@[simp] theorem setLatch_blinkCnt (b : Bool) : (setLatch b s).blinkCnt = s.blinkCnt := rfl
@[simp] theorem setLatch_blinkOn (b : Bool) : (setLatch b s).blinkOn = s.blinkOn := rfl
@[simp] theorem setLatch_mode (b : Bool) : (setLatch b s).mode = s.mode := rfl
@[simp] theorem setLatch_sel (b : Bool) : (setLatch b s).sel = s.sel := rfl
@[simp] theorem setLatch_drawColor (b : Bool) : (setLatch b s).drawColor = s.drawColor := rfl
@[simp] theorem setLatch_joy (b : Bool) : (setLatch b s).joy = s.joy := rfl
@[simp] theorem setLatch_btnPrev (b : Bool) : (setLatch b s).btnPrev = s.btnPrev := rfl
@[simp] theorem setLatch_btnFlag (b : Bool) : (setLatch b s).btnFlag = s.btnFlag := rfl
@[simp] theorem setLatch_key (b : Bool) : (setLatch b s).key = s.key := rfl
@[simp] theorem setLatch_accLine (b : Bool) : (setLatch b s).accLine = s.accLine := rfl
@[simp] theorem setLatch_accRect (b : Bool) : (setLatch b s).accRect = s.accRect := rfl
@[simp] theorem setLatch_accTri (b : Bool) : (setLatch b s).accTri = s.accTri := rfl
@[simp] theorem setLatch_seq (b : Bool) : (setLatch b s).seq = s.seq := rfl
@[simp] theorem setLatch_axisI (b : Bool) : (setLatch b s).axisI = s.axisI := rfl
@[simp] theorem setLatch_colI (b : Bool) : (setLatch b s).colI = s.colI := rfl
@[simp] theorem setLatch_rowI (b : Bool) : (setLatch b s).rowI = s.rowI := rfl
@[simp] theorem setLatch_pairI (b : Bool) : (setLatch b s).pairI = s.pairI := rfl
@[simp] theorem setLatch_colmI (b : Bool) : (setLatch b s).colmI = s.colmI := rfl
@[simp] theorem setLatch_scanMask (b : Bool) : (setLatch b s).scanMask = s.scanMask := rfl
@[simp] theorem setLatch_scanHit (b : Bool) : (setLatch b s).scanHit = s.scanHit := rfl
@[simp] theorem setLatch_sample (b : Bool) : (setLatch b s).sample = s.sample := rfl
@[simp] theorem setLatch_fresh (b : Bool) : (setLatch b s).fresh = s.fresh := rfl
@[simp] theorem setLatch_movementDue (b : Bool) : (setLatch b s).movementDue = s.movementDue := rfl
@[simp] theorem setLatch_conv (b : Bool) : (setLatch b s).conv = s.conv := rfl
@[simp] theorem setLatch_timerDiv (b : Bool) : (setLatch b s).timerDiv = s.timerDiv := rfl
@[simp] theorem setLatch_timerCnt (b : Bool) : (setLatch b s).timerCnt = s.timerCnt := rfl
@[simp] theorem setLatch_oe (b : Bool) : (setLatch b s).oe = s.oe := rfl
@[simp] theorem setLatch_lat (b : Bool) : (setLatch b s).lat = b := rfl
@[simp] theorem setLatch_clk (b : Bool) : (setLatch b s).clk = s.clk := rfl
@[simp] theorem setLatch_busUpper (b : Bool) : (setLatch b s).busUpper = s.busUpper := rfl
@[simp] theorem setLatch_busLower (b : Bool) : (setLatch b s).busLower = s.busLower := rfl
@[simp] theorem setLatch_rowAddr (b : Bool) : (setLatch b s).rowAddr = s.rowAddr := rfl
@[simp] theorem setLatch_colDrive (b : Bool) : (setLatch b s).colDrive = s.colDrive := rfl
@[simp] theorem setLatch_fb (b : Bool) : (setLatch b s).fb = s.fb := rfl
@[simp] theorem setLatch_adcIn (b : Bool) : (setLatch b s).adcIn = s.adcIn := rfl
@[simp] theorem setLatch_button (b : Bool) : (setLatch b s).button = s.button := rfl
@[simp] theorem setLatch_keysDown (b : Bool) : (setLatch b s).keysDown = s.keysDown := rfl
@[simp] theorem setLatch_moves (b : Bool) : (setLatch b s).moves = s.moves := rfl
@[simp] theorem setLatch_trace (b : Bool) : (setLatch b s).trace = .latch b :: s.trace := rfl

/-! ### `setColorBus` -/

@[simp] theorem setColorBus_cfg (u l : Color) : (setColorBus u l s).cfg = s.cfg := rfl
@[simp] theorem setColorBus_cur (u l : Color) : (setColorBus u l s).cur = s.cur := rfl
@[simp] theorem setColorBus_prev (u l : Color) : (setColorBus u l s).prev = s.prev := rfl
@[simp] theorem setColorBus_prevColor (u l : Color) : (setColorBus u l s).prevColor = s.prevColor := rfl
@[simp] theorem setColorBus_blinkCnt (u l : Color) : (setColorBus u l s).blinkCnt = s.blinkCnt := rfl
@[simp] theorem setColorBus_blinkOn (u l : Color) : (setColorBus u l s).blinkOn = s.blinkOn := rfl
@[simp] theorem setColorBus_mode (u l : Color) : (setColorBus u l s).mode = s.mode := rfl
@[simp] theorem setColorBus_sel (u l : Color) : (setColorBus u l s).sel = s.sel := rfl
@[simp] theorem setColorBus_drawColor (u l : Color) : (setColorBus u l s).drawColor = s.drawColor := rfl
@[simp] theorem setColorBus_joy (u l : Color) : (setColorBus u l s).joy = s.joy := rfl
@[simp] theorem setColorBus_btnPrev (u l : Color) : (setColorBus u l s).btnPrev = s.btnPrev := rfl
@[simp] theorem setColorBus_btnFlag (u l : Color) : (setColorBus u l s).btnFlag = s.btnFlag := rfl
@[simp] theorem setColorBus_key (u l : Color) : (setColorBus u l s).key = s.key := rfl
@[simp] theorem setColorBus_accLine (u l : Color) : (setColorBus u l s).accLine = s.accLine := rfl
@[simp] theorem setColorBus_accRect (u l : Color) : (setColorBus u l s).accRect = s.accRect := rfl
@[simp] theorem setColorBus_accTri (u l : Color) : (setColorBus u l s).accTri = s.accTri := rfl
@[simp] theorem setColorBus_seq (u l : Color) : (setColorBus u l s).seq = s.seq := rfl
@[simp] theorem setColorBus_axisI (u l : Color) : (setColorBus u l s).axisI = s.axisI := rfl
@[simp] theorem setColorBus_colI (u l : Color) : (setColorBus u l s).colI = s.colI := rfl
@[simp] theorem setColorBus_rowI (u l : Color) : (setColorBus u l s).rowI = s.rowI := rfl
@[simp] theorem setColorBus_pairI (u l : Color) : (setColorBus u l s).pairI = s.pairI := rfl
@[simp] theorem setColorBus_colmI (u l : Color) : (setColorBus u l s).colmI = s.colmI := rfl
@[simp] theorem setColorBus_scanMask (u l : Color) : (setColorBus u l s).scanMask = s.scanMask := rfl
@[simp] theorem setColorBus_scanHit (u l : Color) : (setColorBus u l s).scanHit = s.scanHit := rfl
@[simp] theorem setColorBus_sample (u l : Color) : (setColorBus u l s).sample = s.sample := rfl
@[simp] theorem setColorBus_fresh (u l : Color) : (setColorBus u l s).fresh = s.fresh := rfl
@[simp] theorem setColorBus_movementDue (u l : Color) : (setColorBus u l s).movementDue = s.movementDue := rfl
@[simp] theorem setColorBus_conv (u l : Color) : (setColorBus u l s).conv = s.conv := rfl
@[simp] theorem setColorBus_timerDiv (u l : Color) : (setColorBus u l s).timerDiv = s.timerDiv := rfl
@[simp] theorem setColorBus_timerCnt (u l : Color) : (setColorBus u l s).timerCnt = s.timerCnt := rfl
@[simp] theorem setColorBus_oe (u l : Color) : (setColorBus u l s).oe = s.oe := rfl
@[simp] theorem setColorBus_lat (u l : Color) : (setColorBus u l s).lat = s.lat := rfl
@[simp] theorem setColorBus_clk (u l : Color) : (setColorBus u l s).clk = s.clk := rfl
@[simp] theorem setColorBus_busUpper (u l : Color) : (setColorBus u l s).busUpper = u := rfl
@[simp] theorem setColorBus_busLower (u l : Color) : (setColorBus u l s).busLower = l := rfl
@[simp] theorem setColorBus_rowAddr (u l : Color) : (setColorBus u l s).rowAddr = s.rowAddr := rfl
@[simp] theorem setColorBus_colDrive (u l : Color) : (setColorBus u l s).colDrive = s.colDrive := rfl
@[simp] theorem setColorBus_fb (u l : Color) : (setColorBus u l s).fb = s.fb := rfl
@[simp] theorem setColorBus_adcIn (u l : Color) : (setColorBus u l s).adcIn = s.adcIn := rfl
@[simp] theorem setColorBus_button (u l : Color) : (setColorBus u l s).button = s.button := rfl
@[simp] theorem setColorBus_keysDown (u l : Color) : (setColorBus u l s).keysDown = s.keysDown := rfl
@[simp] theorem setColorBus_moves (u l : Color) : (setColorBus u l s).moves = s.moves := rfl
@[simp] theorem setColorBus_trace (u l : Color) : (setColorBus u l s).trace = .bus u l :: s.trace := rfl

/-! ### `pulseClock` -/

@[simp] theorem pulseClock_cfg : (pulseClock s).cfg = s.cfg := rfl
@[simp] theorem pulseClock_cur : (pulseClock s).cur = s.cur := rfl
@[simp] theorem pulseClock_prev : (pulseClock s).prev = s.prev := rfl
@[simp] theorem pulseClock_prevColor : (pulseClock s).prevColor = s.prevColor := rfl
@[simp] theorem pulseClock_blinkCnt : (pulseClock s).blinkCnt = s.blinkCnt := rfl
@[simp] theorem pulseClock_blinkOn : (pulseClock s).blinkOn = s.blinkOn := rfl
@[simp] theorem pulseClock_mode : (pulseClock s).mode = s.mode := rfl
@[simp] theorem pulseClock_sel : (pulseClock s).sel = s.sel := rfl
@[simp] theorem pulseClock_drawColor : (pulseClock s).drawColor = s.drawColor := rfl
@[simp] theorem pulseClock_joy : (pulseClock s).joy = s.joy := rfl
@[simp] theorem pulseClock_btnPrev : (pulseClock s).btnPrev = s.btnPrev := rfl
@[simp] theorem pulseClock_btnFlag : (pulseClock s).btnFlag = s.btnFlag := rfl
@[simp] theorem pulseClock_key : (pulseClock s).key = s.key := rfl
@[simp] theorem pulseClock_accLine : (pulseClock s).accLine = s.accLine := rfl
@[simp] theorem pulseClock_accRect : (pulseClock s).accRect = s.accRect := rfl
@[simp] theorem pulseClock_accTri : (pulseClock s).accTri = s.accTri := rfl
@[simp] theorem pulseClock_seq : (pulseClock s).seq = s.seq := rfl
@[simp] theorem pulseClock_axisI : (pulseClock s).axisI = s.axisI := rfl
@[simp] theorem pulseClock_colI : (pulseClock s).colI = s.colI := rfl
@[simp] theorem pulseClock_rowI : (pulseClock s).rowI = s.rowI := rfl
@[simp] theorem pulseClock_pairI : (pulseClock s).pairI = s.pairI := rfl
@[simp] theorem pulseClock_colmI : (pulseClock s).colmI = s.colmI := rfl
@[simp] theorem pulseClock_scanMask : (pulseClock s).scanMask = s.scanMask := rfl
@[simp] theorem pulseClock_scanHit : (pulseClock s).scanHit = s.scanHit := rfl
@[simp] theorem pulseClock_sample : (pulseClock s).sample = s.sample := rfl
@[simp] theorem pulseClock_fresh : (pulseClock s).fresh = s.fresh := rfl
@[simp] theorem pulseClock_movementDue : (pulseClock s).movementDue = s.movementDue := rfl
@[simp] theorem pulseClock_conv : (pulseClock s).conv = s.conv := rfl
@[simp] theorem pulseClock_timerDiv : (pulseClock s).timerDiv = s.timerDiv := rfl
@[simp] theorem pulseClock_timerCnt : (pulseClock s).timerCnt = s.timerCnt := rfl
@[simp] theorem pulseClock_oe : (pulseClock s).oe = s.oe := rfl
@[simp] theorem pulseClock_lat : (pulseClock s).lat = s.lat := rfl
@[simp] theorem pulseClock_clk : (pulseClock s).clk = false := rfl
@[simp] theorem pulseClock_busUpper : (pulseClock s).busUpper = s.busUpper := rfl
@[simp] theorem pulseClock_busLower : (pulseClock s).busLower = s.busLower := rfl
@[simp] theorem pulseClock_rowAddr : (pulseClock s).rowAddr = s.rowAddr := rfl
@[simp] theorem pulseClock_colDrive : (pulseClock s).colDrive = s.colDrive := rfl
@[simp] theorem pulseClock_fb : (pulseClock s).fb = s.fb := rfl
@[simp] theorem pulseClock_adcIn : (pulseClock s).adcIn = s.adcIn := rfl
@[simp] theorem pulseClock_button : (pulseClock s).button = s.button := rfl
@[simp] theorem pulseClock_keysDown : (pulseClock s).keysDown = s.keysDown := rfl
@[simp] theorem pulseClock_moves : (pulseClock s).moves = s.moves := rfl
@[simp] theorem pulseClock_trace : (pulseClock s).trace = .clk :: s.trace := rfl

/-! ### `clearColorBus` -/

@[simp] theorem clearColorBus_cfg : (clearColorBus s).cfg = s.cfg := rfl
@[simp] theorem clearColorBus_cur : (clearColorBus s).cur = s.cur := rfl
@[simp] theorem clearColorBus_prev : (clearColorBus s).prev = s.prev := rfl
@[simp] theorem clearColorBus_prevColor : (clearColorBus s).prevColor = s.prevColor := rfl
@[simp] theorem clearColorBus_blinkCnt : (clearColorBus s).blinkCnt = s.blinkCnt := rfl
@[simp] theorem clearColorBus_blinkOn : (clearColorBus s).blinkOn = s.blinkOn := rfl
@[simp] theorem clearColorBus_mode : (clearColorBus s).mode = s.mode := rfl
@[simp] theorem clearColorBus_sel : (clearColorBus s).sel = s.sel := rfl
@[simp] theorem clearColorBus_drawColor : (clearColorBus s).drawColor = s.drawColor := rfl
@[simp] theorem clearColorBus_joy : (clearColorBus s).joy = s.joy := rfl
@[simp] theorem clearColorBus_btnPrev : (clearColorBus s).btnPrev = s.btnPrev := rfl
@[simp] theorem clearColorBus_btnFlag : (clearColorBus s).btnFlag = s.btnFlag := rfl
@[simp] theorem clearColorBus_key : (clearColorBus s).key = s.key := rfl
@[simp] theorem clearColorBus_accLine : (clearColorBus s).accLine = s.accLine := rfl
@[simp] theorem clearColorBus_accRect : (clearColorBus s).accRect = s.accRect := rfl
@[simp] theorem clearColorBus_accTri : (clearColorBus s).accTri = s.accTri := rfl
@[simp] theorem clearColorBus_seq : (clearColorBus s).seq = s.seq := rfl
@[simp] theorem clearColorBus_axisI : (clearColorBus s).axisI = s.axisI := rfl
@[simp] theorem clearColorBus_colI : (clearColorBus s).colI = s.colI := rfl
@[simp] theorem clearColorBus_rowI : (clearColorBus s).rowI = s.rowI := rfl
@[simp] theorem clearColorBus_pairI : (clearColorBus s).pairI = s.pairI := rfl
@[simp] theorem clearColorBus_colmI : (clearColorBus s).colmI = s.colmI := rfl
@[simp] theorem clearColorBus_scanMask : (clearColorBus s).scanMask = s.scanMask := rfl
@[simp] theorem clearColorBus_scanHit : (clearColorBus s).scanHit = s.scanHit := rfl
@[simp] theorem clearColorBus_sample : (clearColorBus s).sample = s.sample := rfl
@[simp] theorem clearColorBus_fresh : (clearColorBus s).fresh = s.fresh := rfl
@[simp] theorem clearColorBus_movementDue : (clearColorBus s).movementDue = s.movementDue := rfl
@[simp] theorem clearColorBus_conv : (clearColorBus s).conv = s.conv := rfl
@[simp] theorem clearColorBus_timerDiv : (clearColorBus s).timerDiv = s.timerDiv := rfl
@[simp] theorem clearColorBus_timerCnt : (clearColorBus s).timerCnt = s.timerCnt := rfl
@[simp] theorem clearColorBus_oe : (clearColorBus s).oe = s.oe := rfl
@[simp] theorem clearColorBus_lat : (clearColorBus s).lat = s.lat := rfl
@[simp] theorem clearColorBus_clk : (clearColorBus s).clk = s.clk := rfl
@[simp] theorem clearColorBus_busUpper : (clearColorBus s).busUpper = .black := rfl
@[simp] theorem clearColorBus_busLower : (clearColorBus s).busLower = .black := rfl
@[simp] theorem clearColorBus_rowAddr : (clearColorBus s).rowAddr = s.rowAddr := rfl
@[simp] theorem clearColorBus_colDrive : (clearColorBus s).colDrive = s.colDrive := rfl
@[simp] theorem clearColorBus_fb : (clearColorBus s).fb = s.fb := rfl
@[simp] theorem clearColorBus_adcIn : (clearColorBus s).adcIn = s.adcIn := rfl
@[simp] theorem clearColorBus_button : (clearColorBus s).button = s.button := rfl
@[simp] theorem clearColorBus_keysDown : (clearColorBus s).keysDown = s.keysDown := rfl
@[simp] theorem clearColorBus_moves : (clearColorBus s).moves = s.moves := rfl
@[simp] theorem clearColorBus_trace : (clearColorBus s).trace = .clr :: s.trace := rfl

/-! ### `setRowAddress` -/

@[simp] theorem setRowAddress_cfg (i : Nat) : (setRowAddress i s).cfg = s.cfg := rfl
@[simp] theorem setRowAddress_cur (i : Nat) : (setRowAddress i s).cur = s.cur := rfl
@[simp] theorem setRowAddress_prev (i : Nat) : (setRowAddress i s).prev = s.prev := rfl
@[simp] theorem setRowAddress_prevColor (i : Nat) : (setRowAddress i s).prevColor = s.prevColor := rfl
@[simp] theorem setRowAddress_blinkCnt (i : Nat) : (setRowAddress i s).blinkCnt = s.blinkCnt := rfl
@[simp] theorem setRowAddress_blinkOn (i : Nat) : (setRowAddress i s).blinkOn = s.blinkOn := rfl
@[simp] theorem setRowAddress_mode (i : Nat) : (setRowAddress i s).mode = s.mode := rfl
@[simp] theorem setRowAddress_sel (i : Nat) : (setRowAddress i s).sel = s.sel := rfl
@[simp] theorem setRowAddress_drawColor (i : Nat) : (setRowAddress i s).drawColor = s.drawColor := rfl
@[simp] theorem setRowAddress_joy (i : Nat) : (setRowAddress i s).joy = s.joy := rfl
@[simp] theorem setRowAddress_btnPrev (i : Nat) : (setRowAddress i s).btnPrev = s.btnPrev := rfl
@[simp] theorem setRowAddress_btnFlag (i : Nat) : (setRowAddress i s).btnFlag = s.btnFlag := rfl
@[simp] theorem setRowAddress_key (i : Nat) : (setRowAddress i s).key = s.key := rfl
@[simp] theorem setRowAddress_accLine (i : Nat) : (setRowAddress i s).accLine = s.accLine := rfl
@[simp] theorem setRowAddress_accRect (i : Nat) : (setRowAddress i s).accRect = s.accRect := rfl
@[simp] theorem setRowAddress_accTri (i : Nat) : (setRowAddress i s).accTri = s.accTri := rfl
@[simp] theorem setRowAddress_seq (i : Nat) : (setRowAddress i s).seq = s.seq := rfl
@[simp] theorem setRowAddress_axisI (i : Nat) : (setRowAddress i s).axisI = s.axisI := rfl
@[simp] theorem setRowAddress_colI (i : Nat) : (setRowAddress i s).colI = s.colI := rfl
@[simp] theorem setRowAddress_rowI (i : Nat) : (setRowAddress i s).rowI = s.rowI := rfl
@[simp] theorem setRowAddress_pairI (i : Nat) : (setRowAddress i s).pairI = s.pairI := rfl
@[simp] theorem setRowAddress_colmI (i : Nat) : (setRowAddress i s).colmI = s.colmI := rfl
@[simp] theorem setRowAddress_scanMask (i : Nat) : (setRowAddress i s).scanMask = s.scanMask := rfl
@[simp] theorem setRowAddress_scanHit (i : Nat) : (setRowAddress i s).scanHit = s.scanHit := rfl
@[simp] theorem setRowAddress_sample (i : Nat) : (setRowAddress i s).sample = s.sample := rfl
@[simp] theorem setRowAddress_fresh (i : Nat) : (setRowAddress i s).fresh = s.fresh := rfl
@[simp] theorem setRowAddress_movementDue (i : Nat) : (setRowAddress i s).movementDue = s.movementDue := rfl
@[simp] theorem setRowAddress_conv (i : Nat) : (setRowAddress i s).conv = s.conv := rfl
@[simp] theorem setRowAddress_timerDiv (i : Nat) : (setRowAddress i s).timerDiv = s.timerDiv := rfl
@[simp] theorem setRowAddress_timerCnt (i : Nat) : (setRowAddress i s).timerCnt = s.timerCnt := rfl
@[simp] theorem setRowAddress_oe (i : Nat) : (setRowAddress i s).oe = s.oe := rfl
@[simp] theorem setRowAddress_lat (i : Nat) : (setRowAddress i s).lat = s.lat := rfl
@[simp] theorem setRowAddress_clk (i : Nat) : (setRowAddress i s).clk = s.clk := rfl
@[simp] theorem setRowAddress_busUpper (i : Nat) : (setRowAddress i s).busUpper = s.busUpper := rfl
@[simp] theorem setRowAddress_busLower (i : Nat) : (setRowAddress i s).busLower = s.busLower := rfl
@[simp] theorem setRowAddress_rowAddr (i : Nat) : (setRowAddress i s).rowAddr = i := rfl
@[simp] theorem setRowAddress_colDrive (i : Nat) : (setRowAddress i s).colDrive = s.colDrive := rfl
@[simp] theorem setRowAddress_fb (i : Nat) : (setRowAddress i s).fb = s.fb := rfl
@[simp] theorem setRowAddress_adcIn (i : Nat) : (setRowAddress i s).adcIn = s.adcIn := rfl
@[simp] theorem setRowAddress_button (i : Nat) : (setRowAddress i s).button = s.button := rfl
@[simp] theorem setRowAddress_keysDown (i : Nat) : (setRowAddress i s).keysDown = s.keysDown := rfl
@[simp] theorem setRowAddress_moves (i : Nat) : (setRowAddress i s).moves = s.moves := rfl
@[simp] theorem setRowAddress_trace (i : Nat) : (setRowAddress i s).trace = .addr i :: s.trace := rfl

/-! ### `recordPrevious` -/

@[simp] theorem recordPrevious_cfg : (recordPrevious s).cfg = s.cfg := rfl
@[simp] theorem recordPrevious_cur : (recordPrevious s).cur = s.cur := rfl
@[simp] theorem recordPrevious_prev : (recordPrevious s).prev = s.cur := rfl
@[simp] theorem recordPrevious_prevColor : (recordPrevious s).prevColor = s.prevColor := rfl
@[simp] theorem recordPrevious_blinkCnt : (recordPrevious s).blinkCnt = s.blinkCnt := rfl
@[simp] theorem recordPrevious_blinkOn : (recordPrevious s).blinkOn = s.blinkOn := rfl
@[simp] theorem recordPrevious_mode : (recordPrevious s).mode = s.mode := rfl
@[simp] theorem recordPrevious_sel : (recordPrevious s).sel = s.sel := rfl
@[simp] theorem recordPrevious_drawColor : (recordPrevious s).drawColor = s.drawColor := rfl
@[simp] theorem recordPrevious_joy : (recordPrevious s).joy = s.joy := rfl
@[simp] theorem recordPrevious_btnPrev : (recordPrevious s).btnPrev = s.btnPrev := rfl
@[simp] theorem recordPrevious_btnFlag : (recordPrevious s).btnFlag = s.btnFlag := rfl
@[simp] theorem recordPrevious_key : (recordPrevious s).key = s.key := rfl
@[simp] theorem recordPrevious_accLine : (recordPrevious s).accLine = s.accLine := rfl
@[simp] theorem recordPrevious_accRect : (recordPrevious s).accRect = s.accRect := rfl
@[simp] theorem recordPrevious_accTri : (recordPrevious s).accTri = s.accTri := rfl
@[simp] theorem recordPrevious_seq : (recordPrevious s).seq = s.seq := rfl
@[simp] theorem recordPrevious_axisI : (recordPrevious s).axisI = s.axisI := rfl
@[simp] theorem recordPrevious_colI : (recordPrevious s).colI = s.colI := rfl
@[simp] theorem recordPrevious_rowI : (recordPrevious s).rowI = s.rowI := rfl
@[simp] theorem recordPrevious_pairI : (recordPrevious s).pairI = s.pairI := rfl
@[simp] theorem recordPrevious_colmI : (recordPrevious s).colmI = s.colmI := rfl
@[simp] theorem recordPrevious_scanMask : (recordPrevious s).scanMask = s.scanMask := rfl
@[simp] theorem recordPrevious_scanHit : (recordPrevious s).scanHit = s.scanHit := rfl
@[simp] theorem recordPrevious_sample : (recordPrevious s).sample = s.sample := rfl
@[simp] theorem recordPrevious_fresh : (recordPrevious s).fresh = s.fresh := rfl
@[simp] theorem recordPrevious_movementDue : (recordPrevious s).movementDue = s.movementDue := rfl
@[simp] theorem recordPrevious_conv : (recordPrevious s).conv = s.conv := rfl
@[simp] theorem recordPrevious_timerDiv : (recordPrevious s).timerDiv = s.timerDiv := rfl
@[simp] theorem recordPrevious_timerCnt : (recordPrevious s).timerCnt = s.timerCnt := rfl
@[simp] theorem recordPrevious_oe : (recordPrevious s).oe = s.oe := rfl
@[simp] theorem recordPrevious_lat : (recordPrevious s).lat = s.lat := rfl
@[simp] theorem recordPrevious_clk : (recordPrevious s).clk = s.clk := rfl
@[simp] theorem recordPrevious_busUpper : (recordPrevious s).busUpper = s.busUpper := rfl
@[simp] theorem recordPrevious_busLower : (recordPrevious s).busLower = s.busLower := rfl
@[simp] theorem recordPrevious_rowAddr : (recordPrevious s).rowAddr = s.rowAddr := rfl
@[simp] theorem recordPrevious_colDrive : (recordPrevious s).colDrive = s.colDrive := rfl
@[simp] theorem recordPrevious_fb : (recordPrevious s).fb = s.fb := rfl
@[simp] theorem recordPrevious_adcIn : (recordPrevious s).adcIn = s.adcIn := rfl
@[simp] theorem recordPrevious_button : (recordPrevious s).button = s.button := rfl
@[simp] theorem recordPrevious_keysDown : (recordPrevious s).keysDown = s.keysDown := rfl
@[simp] theorem recordPrevious_moves : (recordPrevious s).moves = s.moves := rfl
@[simp] theorem recordPrevious_trace : (recordPrevious s).trace = s.trace := rfl

end Sys2Proof.Laws
end

