-- ==== Sys2Proof/Laws/Ops.lean ====
section
/-! SUPPORT. One lemma for each shared operation that says once everything it can do, and that every operation on the frame
buffer keeps its canonical form. -/

namespace Sys2Proof.Laws

open Sys2Proof.Machine

variable {s t : State} {x y : Int} {c : Color} {p q : Point}

/-! ### Raw accesses -/

theorem fbRead_eq_some : fbRead s x y = some c ↔ inBounds s.cfg x y ∧ c = s.fb.read (cellNumber s.cfg x y) := by
  unfold fbRead; split_ifs with h
  · simp only [Option.some.injEq]; exact ⟨fun e => ⟨h, e.symm⟩, fun e => e.2.symm⟩
  · simp [h]

theorem fbRead_eq_none : fbRead s x y = none ↔ ¬ inBounds s.cfg x y := by
  unfold fbRead; split_ifs with h <;> simp [h]

theorem fbWrite_eq_some : fbWrite x y c s = some t ↔
    inBounds s.cfg x y ∧ t = { s with fb := s.fb.write (cellNumber s.cfg x y) c } := by
  unfold fbWrite; split_ifs with h
  · simp only [Option.some.injEq]; exact ⟨fun e => ⟨h, e.symm⟩, fun e => e.2.symm⟩
  · simp [h]

theorem fbWrite_eq_none : fbWrite x y c s = none ↔ ¬ inBounds s.cfg x y := by
  unfold fbWrite; split_ifs with h <;> simp [h]

/-! ### The canonical form -/

theorem wf_draw (h : s.fb.wf (cellCount s.cfg) = true) : (draw x y c s).fb.wf (cellCount s.cfg) = true := wf_drawCell h

theorem wf_drawCells {ps : List Point} (h : s.fb.wf (cellCount s.cfg) = true) :
    (drawCells ps c s).fb.wf (cellCount s.cfg) = true := wf_foldl_drawCell h

theorem wf_fill : (fill c s).fb.wf (cellCount s.cfg) = true := wf_buildFrom

theorem wf_fillOnce {n : BitVec 4} : (fillOnce n s).fb.wf (cellCount s.cfg) = true := wf_buildFrom

theorem wf_paint {pat : Pattern} : (paint pat s).fb.wf (cellCount s.cfg) = true := wf_buildFrom

theorem wf_fbWrite (h : s.fb.wf (cellCount s.cfg) = true) (e : fbWrite x y c s = some t) :
    t.fb.wf (cellCount t.cfg) = true := by
  obtain ⟨hb, rfl⟩ := fbWrite_eq_some.mp e
  exact wf_write h (cellNumber_lt hb)

theorem wfFrom_filterMap {n k lo : Nat} (f : Nat → Color) (h : lo + k ≤ n) :
    Memory.wfFrom n lo ((List.range' lo k).filterMap fun a => if f a = Config.unlisted then none else some (a, f a)) = true := by
  induction k generalizing lo with
  | zero => rfl
  | succ k ih =>
    have := ih (lo := lo + 1) (by omega)
    rw [List.range'_succ, List.filterMap_cons]
    split_ifs with hc
    · exact wfFrom_weaken this (by omega)
    · exact wfFrom_cons.mpr ⟨le_rfl, by omega, hc, this⟩

theorem wf_resetWith (cfg : Config) : (State.resetWith cfg).fb.wf (cellCount cfg) = true :=
  wfFrom_filterMap _ (Nat.le_of_eq (Nat.zero_add _))

theorem read_filterMap {k lo a : Nat} (f : Nat → Color) (h : lo ≤ a) (h' : a < lo + k) :
    Memory.read ((List.range' lo k).filterMap fun a => if f a = Config.unlisted then none else some (a, f a)) a = f a := by
  induction k generalizing lo with
  | zero => omega
  | succ k ih =>
    rw [List.range'_succ, List.filterMap_cons]
    by_cases e : a = lo
    · subst e
      split_ifs with hc
      · rw [hc]; exact read_below (wfFrom_filterMap (n := a + 1 + k) f le_rfl) (by omega)
      · simp [Memory.read]
    · have := ih (lo := lo + 1) (by omega) (by omega)
      split_ifs with hc
      · exact this
      · simpa [Memory.read, e] using this

/-! ### What full-buffer operations leave in each cell -/

theorem read_fill (hb : inBounds s.cfg x y) : (fill c s).fb.read (cellNumber s.cfg x y) = c :=
  read_buildFrom (f := fun _ => c) _ (Nat.zero_le _) (by have := cellNumber_lt hb; omega)

/-- R47: the cell `(x, y)` of a painted buffer holds the pattern's colour there. -/
theorem read_paint {pat : Pattern} (hb : inBounds s.cfg x y) :
    (paint pat s).fb.read (cellNumber s.cfg x y) = patternColor s.cfg pat x.toNat y.toNat := by
  have hx : x.toNat < s.cfg.width := by obtain ⟨h1, h2, -⟩ := hb; omega
  rw [paint_fb, read_buildFrom _ (Nat.zero_le _) (by have := cellNumber_lt hb; omega)]
  simp only [cellNumber, Nat.mul_comm _ s.cfg.width]
  rw [Nat.mul_add_mod, Nat.mod_eq_of_lt hx, Nat.mul_add_div (by omega), Nat.div_eq_of_lt hx, Nat.add_zero]

/-! ### Accumulators -/

theorem append2_cases (a : Acc2) (p : Point) :
    (a.slot0 = .unset ∧ a.append p = ⟨p, a.slot1⟩) ∨
    (a.slot0 ≠ .unset ∧ a.slot1 = .unset ∧ a.append p = ⟨a.slot0, p⟩) ∨
    (a.slot0 ≠ .unset ∧ a.slot1 ≠ .unset ∧ a.append p = a) := by
  unfold Acc2.append; split_ifs with h0 h1
  · exact .inl ⟨h0, rfl⟩
  · exact .inr (.inl ⟨h0, h1, rfl⟩)
  · exact .inr (.inr ⟨h0, h1, rfl⟩)

theorem append3_cases (a : Acc3) (p : Point) :
    (a.slot0 = .unset ∧ a.append p = ⟨p, a.slot1, a.slot2⟩) ∨
    (a.slot0 ≠ .unset ∧ a.slot1 = .unset ∧ a.append p = ⟨a.slot0, p, a.slot2⟩) ∨
    (a.slot0 ≠ .unset ∧ a.slot1 ≠ .unset ∧ a.slot2 = .unset ∧ a.append p = ⟨a.slot0, a.slot1, p⟩) ∨
    (a.slot0 ≠ .unset ∧ a.slot1 ≠ .unset ∧ a.slot2 ≠ .unset ∧ a.append p = a) := by
  unfold Acc3.append; split_ifs with h0 h1 h2
  · exact .inl ⟨h0, rfl⟩
  · exact .inr (.inl ⟨h0, h1, rfl⟩)
  · exact .inr (.inr (.inl ⟨h0, h1, h2, rfl⟩))
  · exact .inr (.inr (.inr ⟨h0, h1, h2, rfl⟩))

/-- R116, R118: `SEL n` writes `sel` and at most resets one accumulator. -/
theorem select_cases (n : BitVec 4) (s : State) :
    select n s = { s with sel := n } ∨
    (s.mode = .draw ∧ n ≠ s.sel ∧
      ((n = 3#4 ∧ select n s = { s with sel := n, accLine := .unset }) ∨
       (n = 4#4 ∧ select n s = { s with sel := n, accRect := .unset }) ∨
       (n = 5#4 ∧ select n s = { s with sel := n, accTri := .unset }))) := by
  unfold select activate; split_ifs with h h3 h4 h5
  · exact .inr ⟨h.1, h.2, .inl ⟨h3, rfl⟩⟩
  · exact .inr ⟨h.1, h.2, .inr (.inl ⟨h4, rfl⟩)⟩
  · exact .inr ⟨h.1, h.2, .inr (.inr ⟨h5, rfl⟩)⟩
  · exact .inl rfl
  · exact .inl rfl

/-- R140: a capture does nothing, fills a slot, or renders a complete line and resets. -/
theorem captureLine_cases (s : State) :
    (s.btnFlag = false ∧ captureLine s = s) ∨
    (s.btnFlag = true ∧ (s.accLine.append s.cur).slot1 = .unset ∧
      captureLine s = { s with accLine := s.accLine.append s.cur }) ∨
    (s.btnFlag = true ∧ (s.accLine.append s.cur).slot1 ≠ .unset ∧
      captureLine s = { drawCells (lineCells (s.accLine.append s.cur).slot0 (s.accLine.append s.cur).slot1) s.drawColor s
        with accLine := .unset }) := by
  unfold captureLine completeLine; split_ifs with hb h
  · exact .inr (.inr ⟨hb, h, rfl⟩)
  · exact .inr (.inl ⟨hb, not_not.mp h, rfl⟩)
  · exact .inl ⟨by simpa using hb, rfl⟩

/-- R141. -/
theorem captureRect_cases (s : State) :
    (s.btnFlag = false ∧ captureRect s = s) ∨
    (s.btnFlag = true ∧ (s.accRect.append s.cur).slot1 = .unset ∧
      captureRect s = { s with accRect := s.accRect.append s.cur }) ∨
    (s.btnFlag = true ∧ (s.accRect.append s.cur).slot1 ≠ .unset ∧
      captureRect s = { drawCells (rectCells (s.accRect.append s.cur).slot0 (s.accRect.append s.cur).slot1) s.drawColor s
        with accRect := .unset }) := by
  unfold captureRect completeRect; split_ifs with hb h
  · exact .inr (.inr ⟨hb, h, rfl⟩)
  · exact .inr (.inl ⟨hb, not_not.mp h, rfl⟩)
  · exact .inl ⟨by simpa using hb, rfl⟩

/-- R142. -/
theorem captureTri_cases (s : State) :
    (s.btnFlag = false ∧ captureTri s = s) ∨
    (s.btnFlag = true ∧ (s.accTri.append s.cur).slot2 = .unset ∧
      captureTri s = { s with accTri := s.accTri.append s.cur }) ∨
    (s.btnFlag = true ∧ (s.accTri.append s.cur).slot2 ≠ .unset ∧
      captureTri s = { drawCells (triCells (s.accTri.append s.cur).slot0 (s.accTri.append s.cur).slot1
        (s.accTri.append s.cur).slot2) s.drawColor s with accTri := .unset }) := by
  unfold captureTri completeTri; split_ifs with hb h
  · exact .inr (.inr ⟨hb, h, rfl⟩)
  · exact .inr (.inl ⟨hb, not_not.mp h, rfl⟩)
  · exact .inl ⟨by simpa using hb, rfl⟩

/-! ### The movement tick -/

/-- R162: one axis moves by at most one cell and, from a position in range, stays in range. -/
theorem moveAxis_range {joy neutral threshold extent : Nat} {k : Int} (h0 : 0 ≤ k) (h1 : k ≤ (extent : Int) - 1) :
    0 ≤ moveAxis joy neutral threshold extent k ∧ moveAxis joy neutral threshold extent k ≤ (extent : Int) - 1 := by
  unfold moveAxis; split_ifs <;> omega

/-- R163: the trace draw changes at most the frame buffer. -/
theorem traceDraw_eq (s : State) :
    traceDraw s = { s with fb := if traceActive s then drawCell s.cfg s.drawColor s.fb s.cur else s.fb } := by
  unfold traceDraw draw; split_ifs <;> rfl

/-- The state after the steps T1 to T3 of a tick. -/
def afterTrace (s : State) : State := traceDraw (moveCursor (recordPrevious s))

/-- R160: everything a tick can do: the moving branch, a stationary tick that counts, a stationary tick that toggles. -/
theorem tick_cases (h : tick s = some t) :
    (cursorMoved (afterTrace s) ∧ inBounds s.cfg s.cur.x s.cur.y ∧
      inBounds s.cfg (afterTrace s).cur.x (afterTrace s).cur.y ∧
      t = { afterTrace s with
        fb := (afterTrace s).fb.write (cellNumber s.cfg s.cur.x s.cur.y) s.prevColor,
        prevColor := ((afterTrace s).fb.write (cellNumber s.cfg s.cur.x s.cur.y) s.prevColor).read
          (cellNumber s.cfg (afterTrace s).cur.x (afterTrace s).cur.y) }) ∨
    (¬ cursorMoved (afterTrace s) ∧ s.blinkCnt + 1 ≠ s.cfg.blinkThreshold ∧
      t = { afterTrace s with blinkCnt := s.blinkCnt + 1 }) ∨
    (¬ cursorMoved (afterTrace s) ∧ s.blinkCnt + 1 = s.cfg.blinkThreshold ∧
      inBounds s.cfg (afterTrace s).cur.x (afterTrace s).cur.y ∧
      t = { afterTrace s with
        fb := (afterTrace s).fb.write (cellNumber s.cfg (afterTrace s).cur.x (afterTrace s).cur.y)
          (if s.blinkOn then s.prevColor else s.cfg.highlight),
        blinkOn := !s.blinkOn, blinkCnt := 0, btnFlag := s.btnFlag || (s.button && !s.btnPrev), btnPrev := s.button,
        trace := .btn s.button :: s.trace }) := by
  have hu : afterTrace s = { moveCursor (recordPrevious s) with fb := (afterTrace s).fb } := by
    unfold afterTrace; rw [traceDraw_eq]
  have hcfg : (afterTrace s).cfg = s.cfg := by rw [hu]; rfl
  have hprev : (afterTrace s).prev = s.cur := by rw [hu]; rfl
  have hpc : (afterTrace s).prevColor = s.prevColor := by rw [hu]; rfl
  have hbc : (afterTrace s).blinkCnt = s.blinkCnt := by rw [hu]; rfl
  have hbo : (afterTrace s).blinkOn = s.blinkOn := by rw [hu]; rfl
  have hbt : (afterTrace s).button = s.button := by rw [hu]; rfl
  have hbf : (afterTrace s).btnFlag = s.btnFlag := by rw [hu]; rfl
  have hbp : (afterTrace s).btnPrev = s.btnPrev := by rw [hu]; rfl
  have htr : (afterTrace s).trace = s.trace := by rw [hu]; rfl
  change (if cursorMoved (afterTrace s) then vacateAndRemember (afterTrace s) else stationary (afterTrace s)) = some t at h
  generalize afterTrace s = u at *
  clear hu
  split_ifs at h with hm
  · left
    simp only [vacateAndRemember, Option.bind_eq_some_iff, Option.map_eq_some_iff] at h
    obtain ⟨v, hv, k, hk, rfl⟩ := h
    obtain ⟨hb, rfl⟩ := fbWrite_eq_some.mp hv
    obtain ⟨hb', rfl⟩ := fbRead_eq_some.mp hk
    rw [hcfg] at hb; rw [show State.cfg _ = s.cfg from hcfg] at hb'
    rw [hprev] at hb
    exact ⟨hm, hb, hb', by simp only [hcfg, hprev, hpc]⟩
  · right
    simp only [stationary] at h
    split_ifs at h with hc
    · right
      simp only [toggleBlink, Option.map_eq_some_iff] at h
      obtain ⟨v, hv, rfl⟩ := h
      obtain ⟨hb, rfl⟩ := fbWrite_eq_some.mp hv
      refine ⟨hm, by rw [← hbc, ← hcfg]; exact hc, hcfg ▸ hb, ?_⟩
      simp only [sampleButton, emit, blinkColor, hcfg, hpc, hbo, hbt, hbf, hbp, htr]
      cases s.blinkOn <;> rfl
    · left
      obtain rfl := Option.some.inj h
      exact ⟨hm, by rw [← hbc, ← hcfg]; exact hc, by rw [hbc]⟩

/-! ### The agents -/

/-- R92: a completion has its effect on a busy axis, and none on an idle one. -/
theorem completeConversion_cases (a : Axis) (s : State) :
    (s.conv.get a = .busy ∧ completeConversion a s = { s with
      sample := s.sample.set a (s.adcIn.get a), fresh := s.fresh.set a true, conv := s.conv.set a .idle }) ∨
    (s.conv.get a ≠ .busy ∧ completeConversion a s = s) := by
  unfold completeConversion; split_ifs with h
  · exact .inl ⟨h, rfl⟩
  · exact .inr ⟨h, rfl⟩

/-- R232: a base tick fires the flag or counts. -/
theorem timerFire_cases (s : State) :
    (s.timerDiv ≤ s.timerCnt + 1 ∧ timerFire s = { s with movementDue := true, timerCnt := 0 }) ∨
    (s.timerCnt + 1 < s.timerDiv ∧ timerFire s = { s with timerCnt := s.timerCnt + 1 }) := by
  unfold timerFire; split_ifs with h
  · exact .inl ⟨h, rfl⟩
  · exact .inr ⟨by omega, rfl⟩

end Sys2Proof.Laws
end

