-- ==== Sys2Proof/Laws/PerInstr.lean ====
section
/-! SUPPORT. Facts about every instruction as syntax, one lemma per constructor: its encoding fits its row of
spec/opcode_table.json (the row's format, and its fixed bits under the row's mask). -/

namespace Sys2Proof.Laws

/-- A row of spec/opcode_table.json: its format, `match` and `mask`. -/
structure TableRow where
  fmt : Format
  value : Nat
  mask : Nat
deriving DecidableEq, Repr

/-- The row of each instruction, copied from the table. -/
def tableRow : Instr → TableRow
  | .nokey _ => ⟨.k5, 0x00, 0x10⟩
  | .sel1 => ⟨.k5, 0x11, 0x1F⟩
  | .sel2 => ⟨.k5, 0x12, 0x1F⟩
  | .sel3 => ⟨.k5, 0x13, 0x1F⟩
  | .sel4 => ⟨.k5, 0x14, 0x1F⟩
  | .sel5 => ⟨.k5, 0x15, 0x1F⟩
  | .sel6 => ⟨.k5, 0x16, 0x1F⟩
  | .sel7 => ⟨.k5, 0x17, 0x1F⟩
  | .sel8 => ⟨.k5, 0x18, 0x1F⟩
  | .modeSpeed => ⟨.k5, 0x19, 0x1F⟩
  | .modeColor => ⟨.k5, 0x1A, 0x1F⟩
  | .modeFill => ⟨.k5, 0x10, 0x1F⟩
  | .modeDraw => ⟨.k5, 0x1B, 0x1F⟩
  | .k5Reserved _ => ⟨.k5, 0x1C, 0x1C⟩
  | .colorUnreachable0 => ⟨.m6, 0x00, 0x3F⟩
  | .colorSet1 => ⟨.m6, 0x01, 0x3F⟩
  | .colorSet2 => ⟨.m6, 0x02, 0x3F⟩
  | .colorSet3 => ⟨.m6, 0x03, 0x3F⟩
  | .colorSet4 => ⟨.m6, 0x04, 0x3F⟩
  | .colorSet5 => ⟨.m6, 0x05, 0x3F⟩
  | .colorSet6 => ⟨.m6, 0x06, 0x3F⟩
  | .colorSet7 => ⟨.m6, 0x07, 0x3F⟩
  | .colorSet8 => ⟨.m6, 0x08, 0x3F⟩
  | .colorUnreachable9 => ⟨.m6, 0x09, 0x3F⟩
  | .colorUnreachableA => ⟨.m6, 0x0A, 0x3F⟩
  | .colorUnreachableB => ⟨.m6, 0x0B, 0x3F⟩
  | .colorUnreachableC => ⟨.m6, 0x0C, 0x3F⟩
  | .colorUnreachableD => ⟨.m6, 0x0D, 0x3F⟩
  | .colorUnreachableE => ⟨.m6, 0x0E, 0x3F⟩
  | .colorNone => ⟨.m6, 0x0F, 0x3F⟩
  | .fillUnreachable0 => ⟨.m6, 0x10, 0x3F⟩
  | .fillDo1 => ⟨.m6, 0x11, 0x3F⟩
  | .fillDo2 => ⟨.m6, 0x12, 0x3F⟩
  | .fillDo3 => ⟨.m6, 0x13, 0x3F⟩
  | .fillDo4 => ⟨.m6, 0x14, 0x3F⟩
  | .fillDo5 => ⟨.m6, 0x15, 0x3F⟩
  | .fillDo6 => ⟨.m6, 0x16, 0x3F⟩
  | .fillDo7 => ⟨.m6, 0x17, 0x3F⟩
  | .fillDo8 => ⟨.m6, 0x18, 0x3F⟩
  | .fillUnreachable9 => ⟨.m6, 0x19, 0x3F⟩
  | .fillUnreachableA => ⟨.m6, 0x1A, 0x3F⟩
  | .fillUnreachableB => ⟨.m6, 0x1B, 0x3F⟩
  | .fillUnreachableC => ⟨.m6, 0x1C, 0x3F⟩
  | .fillUnreachableD => ⟨.m6, 0x1D, 0x3F⟩
  | .fillUnreachableE => ⟨.m6, 0x1E, 0x3F⟩
  | .fillNone => ⟨.m6, 0x1F, 0x3F⟩
  | .drawUnreachable0 => ⟨.m6, 0x20, 0x3F⟩
  | .drawFree => ⟨.m6, 0x21, 0x3F⟩
  | .drawTrace => ⟨.m6, 0x22, 0x3F⟩
  | .drawLine => ⟨.m6, 0x23, 0x3F⟩
  | .drawRect => ⟨.m6, 0x24, 0x3F⟩
  | .drawTri => ⟨.m6, 0x25, 0x3F⟩
  | .drawPat6 => ⟨.m6, 0x26, 0x3F⟩
  | .drawPat7 => ⟨.m6, 0x27, 0x3F⟩
  | .drawFill => ⟨.m6, 0x28, 0x3F⟩
  | .drawUnreachable9 => ⟨.m6, 0x29, 0x3F⟩
  | .drawUnreachableA => ⟨.m6, 0x2A, 0x3F⟩
  | .drawUnreachableB => ⟨.m6, 0x2B, 0x3F⟩
  | .drawUnreachableC => ⟨.m6, 0x2C, 0x3F⟩
  | .drawUnreachableD => ⟨.m6, 0x2D, 0x3F⟩
  | .drawUnreachableE => ⟨.m6, 0x2E, 0x3F⟩
  | .drawNone => ⟨.m6, 0x2F, 0x3F⟩
  | .speedUnreachable0 => ⟨.m6, 0x30, 0x3F⟩
  | .speedSet1 => ⟨.m6, 0x31, 0x3F⟩
  | .speedSet2 => ⟨.m6, 0x32, 0x3F⟩
  | .speedSet3 => ⟨.m6, 0x33, 0x3F⟩
  | .speedSet4 => ⟨.m6, 0x34, 0x3F⟩
  | .speedSet5 => ⟨.m6, 0x35, 0x3F⟩
  | .speedSet6 => ⟨.m6, 0x36, 0x3F⟩
  | .speedSet7 => ⟨.m6, 0x37, 0x3F⟩
  | .speedSet8 => ⟨.m6, 0x38, 0x3F⟩
  | .speedUnreachable9 => ⟨.m6, 0x39, 0x3F⟩
  | .speedUnreachableA => ⟨.m6, 0x3A, 0x3F⟩
  | .speedUnreachableB => ⟨.m6, 0x3B, 0x3F⟩
  | .speedUnreachableC => ⟨.m6, 0x3C, 0x3F⟩
  | .speedUnreachableD => ⟨.m6, 0x3D, 0x3F⟩
  | .speedUnreachableE => ⟨.m6, 0x3E, 0x3F⟩
  | .speedNone => ⟨.m6, 0x3F, 0x3F⟩

/-- The word lies in the row: same format, and the bits under the mask are the row's. -/
def TableRow.holds (t : TableRow) (w : CodeWord) : Prop :=
  match w with
  | .k5 b => t.fmt = .k5 ∧ b &&& BitVec.ofNat 5 t.mask = BitVec.ofNat 5 t.value
  | .m6 b => t.fmt = .m6 ∧ b &&& BitVec.ofNat 6 t.mask = BitVec.ofNat 6 t.value

/-- A well-formed instruction is encoded as a word of its own row of the opcode table. -/
def EncodingFitsRow.Statement (i : Instr) : Prop := i.wf = true → (tableRow i).holds (encode i)

theorem EncodingFitsRow.nokey (v : BitVec 4) : EncodingFitsRow.Statement (.nokey v) := by
  intro _; revert v; simp only [TableRow.holds, encode, tableRow]; decide

theorem EncodingFitsRow.sel1 : EncodingFitsRow.Statement .sel1 := fun _ => ⟨rfl, rfl⟩

theorem EncodingFitsRow.sel2 : EncodingFitsRow.Statement .sel2 := fun _ => ⟨rfl, rfl⟩

theorem EncodingFitsRow.sel3 : EncodingFitsRow.Statement .sel3 := fun _ => ⟨rfl, rfl⟩

theorem EncodingFitsRow.sel4 : EncodingFitsRow.Statement .sel4 := fun _ => ⟨rfl, rfl⟩

theorem EncodingFitsRow.sel5 : EncodingFitsRow.Statement .sel5 := fun _ => ⟨rfl, rfl⟩

theorem EncodingFitsRow.sel6 : EncodingFitsRow.Statement .sel6 := fun _ => ⟨rfl, rfl⟩

theorem EncodingFitsRow.sel7 : EncodingFitsRow.Statement .sel7 := fun _ => ⟨rfl, rfl⟩

theorem EncodingFitsRow.sel8 : EncodingFitsRow.Statement .sel8 := fun _ => ⟨rfl, rfl⟩

theorem EncodingFitsRow.modeSpeed : EncodingFitsRow.Statement .modeSpeed := fun _ => ⟨rfl, rfl⟩

theorem EncodingFitsRow.modeColor : EncodingFitsRow.Statement .modeColor := fun _ => ⟨rfl, rfl⟩

theorem EncodingFitsRow.modeFill : EncodingFitsRow.Statement .modeFill := fun _ => ⟨rfl, rfl⟩

theorem EncodingFitsRow.modeDraw : EncodingFitsRow.Statement .modeDraw := fun _ => ⟨rfl, rfl⟩

theorem EncodingFitsRow.k5Reserved (v : BitVec 4) : EncodingFitsRow.Statement (.k5Reserved v) := by
  revert v; simp only [EncodingFitsRow.Statement, TableRow.holds, encode, tableRow, Instr.wf]; decide

theorem EncodingFitsRow.colorUnreachable0 : EncodingFitsRow.Statement .colorUnreachable0 := fun _ => ⟨rfl, rfl⟩

theorem EncodingFitsRow.colorSet1 : EncodingFitsRow.Statement .colorSet1 := fun _ => ⟨rfl, rfl⟩

theorem EncodingFitsRow.colorSet2 : EncodingFitsRow.Statement .colorSet2 := fun _ => ⟨rfl, rfl⟩

theorem EncodingFitsRow.colorSet3 : EncodingFitsRow.Statement .colorSet3 := fun _ => ⟨rfl, rfl⟩

theorem EncodingFitsRow.colorSet4 : EncodingFitsRow.Statement .colorSet4 := fun _ => ⟨rfl, rfl⟩

theorem EncodingFitsRow.colorSet5 : EncodingFitsRow.Statement .colorSet5 := fun _ => ⟨rfl, rfl⟩

theorem EncodingFitsRow.colorSet6 : EncodingFitsRow.Statement .colorSet6 := fun _ => ⟨rfl, rfl⟩

theorem EncodingFitsRow.colorSet7 : EncodingFitsRow.Statement .colorSet7 := fun _ => ⟨rfl, rfl⟩

theorem EncodingFitsRow.colorSet8 : EncodingFitsRow.Statement .colorSet8 := fun _ => ⟨rfl, rfl⟩

theorem EncodingFitsRow.colorUnreachable9 : EncodingFitsRow.Statement .colorUnreachable9 := fun _ => ⟨rfl, rfl⟩

theorem EncodingFitsRow.colorUnreachableA : EncodingFitsRow.Statement .colorUnreachableA := fun _ => ⟨rfl, rfl⟩

theorem EncodingFitsRow.colorUnreachableB : EncodingFitsRow.Statement .colorUnreachableB := fun _ => ⟨rfl, rfl⟩

theorem EncodingFitsRow.colorUnreachableC : EncodingFitsRow.Statement .colorUnreachableC := fun _ => ⟨rfl, rfl⟩

theorem EncodingFitsRow.colorUnreachableD : EncodingFitsRow.Statement .colorUnreachableD := fun _ => ⟨rfl, rfl⟩

theorem EncodingFitsRow.colorUnreachableE : EncodingFitsRow.Statement .colorUnreachableE := fun _ => ⟨rfl, rfl⟩

theorem EncodingFitsRow.colorNone : EncodingFitsRow.Statement .colorNone := fun _ => ⟨rfl, rfl⟩

theorem EncodingFitsRow.fillUnreachable0 : EncodingFitsRow.Statement .fillUnreachable0 := fun _ => ⟨rfl, rfl⟩

theorem EncodingFitsRow.fillDo1 : EncodingFitsRow.Statement .fillDo1 := fun _ => ⟨rfl, rfl⟩

theorem EncodingFitsRow.fillDo2 : EncodingFitsRow.Statement .fillDo2 := fun _ => ⟨rfl, rfl⟩

theorem EncodingFitsRow.fillDo3 : EncodingFitsRow.Statement .fillDo3 := fun _ => ⟨rfl, rfl⟩

theorem EncodingFitsRow.fillDo4 : EncodingFitsRow.Statement .fillDo4 := fun _ => ⟨rfl, rfl⟩

theorem EncodingFitsRow.fillDo5 : EncodingFitsRow.Statement .fillDo5 := fun _ => ⟨rfl, rfl⟩

theorem EncodingFitsRow.fillDo6 : EncodingFitsRow.Statement .fillDo6 := fun _ => ⟨rfl, rfl⟩

theorem EncodingFitsRow.fillDo7 : EncodingFitsRow.Statement .fillDo7 := fun _ => ⟨rfl, rfl⟩

theorem EncodingFitsRow.fillDo8 : EncodingFitsRow.Statement .fillDo8 := fun _ => ⟨rfl, rfl⟩

theorem EncodingFitsRow.fillUnreachable9 : EncodingFitsRow.Statement .fillUnreachable9 := fun _ => ⟨rfl, rfl⟩

theorem EncodingFitsRow.fillUnreachableA : EncodingFitsRow.Statement .fillUnreachableA := fun _ => ⟨rfl, rfl⟩

theorem EncodingFitsRow.fillUnreachableB : EncodingFitsRow.Statement .fillUnreachableB := fun _ => ⟨rfl, rfl⟩

theorem EncodingFitsRow.fillUnreachableC : EncodingFitsRow.Statement .fillUnreachableC := fun _ => ⟨rfl, rfl⟩

theorem EncodingFitsRow.fillUnreachableD : EncodingFitsRow.Statement .fillUnreachableD := fun _ => ⟨rfl, rfl⟩

theorem EncodingFitsRow.fillUnreachableE : EncodingFitsRow.Statement .fillUnreachableE := fun _ => ⟨rfl, rfl⟩

theorem EncodingFitsRow.fillNone : EncodingFitsRow.Statement .fillNone := fun _ => ⟨rfl, rfl⟩

theorem EncodingFitsRow.drawUnreachable0 : EncodingFitsRow.Statement .drawUnreachable0 := fun _ => ⟨rfl, rfl⟩

theorem EncodingFitsRow.drawFree : EncodingFitsRow.Statement .drawFree := fun _ => ⟨rfl, rfl⟩

theorem EncodingFitsRow.drawTrace : EncodingFitsRow.Statement .drawTrace := fun _ => ⟨rfl, rfl⟩

theorem EncodingFitsRow.drawLine : EncodingFitsRow.Statement .drawLine := fun _ => ⟨rfl, rfl⟩

theorem EncodingFitsRow.drawRect : EncodingFitsRow.Statement .drawRect := fun _ => ⟨rfl, rfl⟩

theorem EncodingFitsRow.drawTri : EncodingFitsRow.Statement .drawTri := fun _ => ⟨rfl, rfl⟩

theorem EncodingFitsRow.drawPat6 : EncodingFitsRow.Statement .drawPat6 := fun _ => ⟨rfl, rfl⟩

theorem EncodingFitsRow.drawPat7 : EncodingFitsRow.Statement .drawPat7 := fun _ => ⟨rfl, rfl⟩

theorem EncodingFitsRow.drawFill : EncodingFitsRow.Statement .drawFill := fun _ => ⟨rfl, rfl⟩

theorem EncodingFitsRow.drawUnreachable9 : EncodingFitsRow.Statement .drawUnreachable9 := fun _ => ⟨rfl, rfl⟩

theorem EncodingFitsRow.drawUnreachableA : EncodingFitsRow.Statement .drawUnreachableA := fun _ => ⟨rfl, rfl⟩

theorem EncodingFitsRow.drawUnreachableB : EncodingFitsRow.Statement .drawUnreachableB := fun _ => ⟨rfl, rfl⟩

theorem EncodingFitsRow.drawUnreachableC : EncodingFitsRow.Statement .drawUnreachableC := fun _ => ⟨rfl, rfl⟩

theorem EncodingFitsRow.drawUnreachableD : EncodingFitsRow.Statement .drawUnreachableD := fun _ => ⟨rfl, rfl⟩

theorem EncodingFitsRow.drawUnreachableE : EncodingFitsRow.Statement .drawUnreachableE := fun _ => ⟨rfl, rfl⟩

theorem EncodingFitsRow.drawNone : EncodingFitsRow.Statement .drawNone := fun _ => ⟨rfl, rfl⟩

theorem EncodingFitsRow.speedUnreachable0 : EncodingFitsRow.Statement .speedUnreachable0 := fun _ => ⟨rfl, rfl⟩

theorem EncodingFitsRow.speedSet1 : EncodingFitsRow.Statement .speedSet1 := fun _ => ⟨rfl, rfl⟩

theorem EncodingFitsRow.speedSet2 : EncodingFitsRow.Statement .speedSet2 := fun _ => ⟨rfl, rfl⟩

theorem EncodingFitsRow.speedSet3 : EncodingFitsRow.Statement .speedSet3 := fun _ => ⟨rfl, rfl⟩

theorem EncodingFitsRow.speedSet4 : EncodingFitsRow.Statement .speedSet4 := fun _ => ⟨rfl, rfl⟩

theorem EncodingFitsRow.speedSet5 : EncodingFitsRow.Statement .speedSet5 := fun _ => ⟨rfl, rfl⟩

theorem EncodingFitsRow.speedSet6 : EncodingFitsRow.Statement .speedSet6 := fun _ => ⟨rfl, rfl⟩

theorem EncodingFitsRow.speedSet7 : EncodingFitsRow.Statement .speedSet7 := fun _ => ⟨rfl, rfl⟩

theorem EncodingFitsRow.speedSet8 : EncodingFitsRow.Statement .speedSet8 := fun _ => ⟨rfl, rfl⟩

theorem EncodingFitsRow.speedUnreachable9 : EncodingFitsRow.Statement .speedUnreachable9 := fun _ => ⟨rfl, rfl⟩

theorem EncodingFitsRow.speedUnreachableA : EncodingFitsRow.Statement .speedUnreachableA := fun _ => ⟨rfl, rfl⟩

theorem EncodingFitsRow.speedUnreachableB : EncodingFitsRow.Statement .speedUnreachableB := fun _ => ⟨rfl, rfl⟩

theorem EncodingFitsRow.speedUnreachableC : EncodingFitsRow.Statement .speedUnreachableC := fun _ => ⟨rfl, rfl⟩

theorem EncodingFitsRow.speedUnreachableD : EncodingFitsRow.Statement .speedUnreachableD := fun _ => ⟨rfl, rfl⟩

theorem EncodingFitsRow.speedUnreachableE : EncodingFitsRow.Statement .speedUnreachableE := fun _ => ⟨rfl, rfl⟩

theorem EncodingFitsRow.speedNone : EncodingFitsRow.Statement .speedNone := fun _ => ⟨rfl, rfl⟩

end Sys2Proof.Laws
end

