-- ==== Sys2Proof/Laws/Step.lean ====
section
/-! SUPPORT. What one step is: whose turn it is, and which function of the state the main sequencer's turn applies. -/

namespace Sys2Proof.Laws

open Sys2Proof.Machine

variable {s t : State}

/-- The main sequencer's turn, whether or not it is scheduled by name. -/
theorem step_main (h : mainNext s) : step s = mainStep { s with moves := s.moves.tail } := by
  unfold mainNext at h
  unfold step
  split
  · rename_i hm; conv_lhs => rw [show s = { s with moves := s.moves.tail } by rw [hm]; cases s; simp_all]
  · rename_i hm; rw [hm]; rfl
  · rename_i hm; rw [hm] at h; simp at h

/-- Another agent's turn, or a change of an input. -/
theorem step_env {e : EnvMove} {rest : List Move} (h : s.moves = .env e :: rest) :
    step s = .next (envStep e { s with moves := rest }) := by
  unfold step; rw [h]

/-- Every step is the main sequencer's or the environment's. -/
theorem step_turn (s : State) : mainNext s ∨ ∃ e rest, s.moves = .env e :: rest := by
  unfold mainNext
  rcases hm : s.moves with _ | ⟨_ | e, rest⟩
  · exact .inl rfl
  · exact .inl rfl
  · exact .inr ⟨e, rest, rfl⟩

theorem mainStep_p1 {d : DrainPos} (h : s.seq = .p1 d) : mainStep s = .next (drainStep d s) := by
  unfold mainStep; rw [h]

theorem mainStep_p2 {q : ScanPos} (h : s.seq = .p2 q) : mainStep s = .next (scanStep q s) := by
  unfold mainStep; rw [h]

theorem mainStep_p3 (h : s.seq = .p3) : mainStep s = thenPhase .p4 (exec (keyInstr s) s) := by
  unfold mainStep; rw [h]

theorem mainStep_p4 (h : s.seq = .p4) : mainStep s = thenPhase (.p5 .test) (exec (modeInstr s) s) := by
  unfold mainStep; rw [h]

theorem mainStep_p5 {g : GatePos} (h : s.seq = .p5 g) : mainStep s = gateStep g s := by
  unfold mainStep; rw [h]

theorem mainStep_p6 {r : PassPos} (h : s.seq = .p6 r) : mainStep s = refreshStep r s := by
  unfold mainStep; rw [h]

theorem thenPhase_eq_next {p : SeqPos} {r : Result} : thenPhase p r = .next t ↔ ∃ u, r = .next u ∧ t = { u with seq := p } := by
  cases r <;> simp [thenPhase, eq_comm]

/-! ### What the pieces of each phase can do -/

/-- R94: the end of one axis's body. -/
theorem drainNext_cases (s : State) :
    (s.axisI = .x ∧ drainNext s = { s with axisI := .y, seq := .p1 .test }) ∨
    (s.axisI = .y ∧ drainNext s = { s with axisI := .x, seq := .p2 .drive }) := by
  unfold drainNext; split
  · rename_i h; exact .inl ⟨h, rfl⟩
  · rename_i h; exact .inr ⟨h, rfl⟩

/-- R100: one round of the row loop keeps the first asserted row and goes on, or leaves the loop after row 3. -/
theorem scanRow_cases (s : State) : ∃ hit : Option (Fin 4),
    (hit = s.scanHit ∨ (s.scanHit = none ∧ s.scanMask.getLsbD s.rowI.val = true ∧ hit = some s.rowI)) ∧
    ((∃ r, nextRow s.rowI = some r ∧ scanRow s = { s with scanHit := hit, rowI := r }) ∨
      (nextRow s.rowI = none ∧ scanRow s = { s with scanHit := hit, rowI := 0, seq := .p2 .release })) := by
  refine ⟨if s.scanMask.getLsbD s.rowI.val ∧ s.scanHit = none then some s.rowI else s.scanHit, ?_, ?_⟩
  · split_ifs with h
    · exact .inr ⟨h.2, h.1, rfl⟩
    · exact .inl rfl
  · unfold scanRow
    cases h : nextRow s.rowI with
    | some r => exact .inl ⟨r, rfl, rfl⟩
    | none => exact .inr ⟨rfl, rfl⟩

/-- R100: after the release the sweep ends with the key found, goes on to the next column, or ends without a key. -/
theorem scanRelease_cases (s : State) :
    (∃ r0, s.scanHit = some r0 ∧ scanRelease s = endScan (keyFound r0 s.colI) (releaseColumn s.colI s)) ∨
    (s.scanHit = none ∧ ∃ c, nextCol s.colI = some c ∧
      scanRelease s = { releaseColumn s.colI s with colI := c, scanMask := 0#4, seq := .p2 .drive }) ∨
    (s.scanHit = none ∧ nextCol s.colI = none ∧ scanRelease s = endScan keyNone (releaseColumn s.colI s)) := by
  unfold scanRelease; split
  · rename_i r0 h; exact .inl ⟨r0, h, rfl⟩
  · rename_i h; split
    · rename_i c hc; exact .inr (.inl ⟨h, c, hc, rfl⟩)
    · rename_i hc; exact .inr (.inr ⟨h, hc, rfl⟩)

theorem nextCol_eq_some {c d : Fin 3} : nextCol c = some d ↔ d.val = c.val + 1 := by
  revert c d; decide

theorem nextRow_eq_some {c d : Fin 4} : nextRow c = some d ↔ d.val = c.val + 1 := by
  revert c d; decide

/-- R200 step 2: presenting a column succeeds exactly when both its cells are in bounds. -/
theorem presentColumn_eq_next : presentColumn s = .next t ↔
    inBounds s.cfg s.colmI s.pairI ∧ inBounds s.cfg s.colmI (lowerRow s.cfg s.pairI) ∧
    t = { setColorBus (s.fb.read (cellNumber s.cfg s.colmI s.pairI))
      (s.fb.read (cellNumber s.cfg s.colmI (lowerRow s.cfg s.pairI))) s with seq := .p6 .pulse } := by
  unfold presentColumn fbRead
  by_cases h1 : inBounds s.cfg s.colmI s.pairI
  · by_cases h2 : inBounds s.cfg s.colmI (lowerRow s.cfg s.pairI)
    · rw [if_pos h1, if_pos h2]; simp only [Host.Outcome.next.injEq]
      exact ⟨fun e => ⟨h1, h2, e.symm⟩, fun e => e.2.2.symm⟩
    · rw [if_neg h2]; simp only [h2, false_and, and_false, iff_false]; split <;> simp_all
  · rw [if_neg h1]; simp only [h1, false_and, iff_false]; simp

/-- R54: the two cells of a column of a pair are in bounds. -/
theorem pair_inBounds {cfg : Config} {c p : Nat} (hc : c < cfg.width) (hp : p < cfg.npairs) :
    inBounds cfg c p ∧ inBounds cfg c (lowerRow cfg p) := by
  unfold inBounds lowerRow Config.height
  omega

/-- R200: after a column's clear comes the next column or step 3. -/
theorem clearColumn_cases (s : State) :
    (s.colmI + 1 < s.cfg.width ∧ clearColumn s = { clearColorBus s with colmI := s.colmI + 1, seq := .p6 .setBus }) ∨
    (s.cfg.width ≤ s.colmI + 1 ∧ clearColumn s = { clearColorBus s with colmI := 0, seq := .p6 .latchOn }) := by
  unfold clearColumn; split_ifs with h
  · exact .inl ⟨h, rfl⟩
  · exact .inr ⟨by omega, rfl⟩

/-- R200: after the address comes the next pair or the next iteration. -/
theorem addressPair_cases (s : State) :
    (s.pairI + 1 < s.cfg.npairs ∧ addressPair s =
      { setRowAddress (addrAfter s.cfg s.pairI) s with pairI := s.pairI + 1, seq := .p6 .outputOff }) ∨
    (s.cfg.npairs ≤ s.pairI + 1 ∧ addressPair s =
      { setRowAddress (addrAfter s.cfg s.pairI) s with pairI := 0, seq := .p1 .test }) := by
  unfold addressPair; split_ifs with h
  · exact .inl ⟨h, rfl⟩
  · exact .inr ⟨by omega, rfl⟩

/-- R208, R210: the address driven is a row-pair's. -/
theorem addrAfter_lt {cfg : Config} {p : Nat} (h : p < cfg.npairs) : addrAfter cfg p < cfg.npairs := by
  unfold addrAfter; split
  · exact Nat.mod_lt _ (by omega)
  · exact h

end Sys2Proof.Laws
end

