-- ==== Sys2Proof/Machine/Stimulus.lean ====
section
/-! DEFINITION. The stimulus script (30_encoding.md R72): one line per iteration, fields left out, repeats, and the run of a
script under the synchronous schedule. The script is one way of driving the machine; no step depends on it. -/

namespace Sys2Proof.Machine

/-! ### The script's lines -/

/-- R72: the values of one iteration: the keys held, what the converters deliver, the button's level, the base ticks. -/
structure StimulusLine where
  keys : List (Fin 4 × Fin 3)
  jx : Nat
  jy : Nat
  b : Bool
  t : Nat
deriving DecidableEq, Repr

/-- R72: a line as written, `K=<keys> JX=<n> JY=<n> B=<0|1> T=<n> xN`: an absent field was left out, the keys are given by
their characters, `-` by the empty list, and a line without `xN` has `times = 1`. -/
structure ScriptLine where
  k : Option (List (BitVec 8)) := none
  jx : Option Nat := none
  jy : Option Nat := none
  b : Option Bool := none
  t : Option Nat := none
  times : Nat := 1
deriving DecidableEq, Repr

/-- R72: "the defaults before the first line". -/
def stimulusDefault (cfg : Config) : StimulusLine := ⟨[], cfg.neutralX, cfg.neutralY, false, 0⟩

/-- R62, R63: the place of the key with a character of `KEYLUT`; no other character names a key. -/
def keyOfChar (ch : BitVec 8) : Option (Fin 4 × Fin 3) :=
  ((List.finRange 4).flatMap fun r => (List.finRange 3).map fun c => (r, c)).find? fun k =>
    keyLut[linearIndex k.1 k.2].1 == ch

/-- The places of a list of characters; absent when one of them is no key's (assumption log 26). -/
def keysOfChars : List (BitVec 8) → Option (List (Fin 4 × Fin 3))
  | [] => some []
  | ch :: rest => (keyOfChar ch).bind fun k => (keysOfChars rest).map (k :: ·)

/-- R72: "A field left out keeps the value of the line before". -/
def ScriptLine.complete (before : StimulusLine) (l : ScriptLine) : Option StimulusLine :=
  (match l.k with
    | none => some before.keys
    | some chars => keysOfChars chars).map fun keys =>
    ⟨keys, l.jx.getD before.jx, l.jy.getD before.jy, l.b.getD before.b, l.t.getD before.t⟩

/-- R72: the lines of the iterations of a script, in order: each written line completed from the one before it and repeated
as often as it says. -/
def expandScript (before : StimulusLine) : List ScriptLine → Option (List StimulusLine)
  | [] => some []
  | l :: rest => (l.complete before).bind fun full =>
    (expandScript full rest).map (List.replicate l.times full ++ ·)

/-! ### The synchronous schedule -/

/-- R72: "every axis with `conv[a] = busy` completes". -/
def completionsDue (s : State) : List Move :=
  (if s.conv.x = .busy then [.env (.complete .x)] else []) ++ (if s.conv.y = .busy then [.env (.complete .y)] else [])

/-- R72: what happens before an iteration: the inputs take the line's values, then the completions, then `T` base ticks. -/
def stimulusMoves (l : StimulusLine) (s : State) : List Move :=
  [.env (.setKeys l.keys), .env (.setAdc .x l.jx), .env (.setAdc .y l.jy), .env (.setButton l.b)] ++
    completionsDue s ++ List.replicate l.t (.env .baseTick)

/-- R72: the line is scheduled "before each iteration": at an iteration boundary with nothing scheduled, and nowhere else. -/
def State.stimulate (l : StimulusLine) (s : State) : Option State :=
  if atBoundary s ∧ s.moves = [] then some { s with moves := stimulusMoves l s } else none

/-! ### Running a script -/

/-- The next state of an outcome. -/
def nextState : Result → Option State
  | .next t => some t
  | .fault _ => none
  | .refused _ => none

/-- `n` steps. -/
def runSteps : Nat → State → Option State
  | 0, s => some s
  | n + 1, s => (nextState (step s)).bind (runSteps n)

/-- At least one step, then on to the next iteration boundary; absent when it is not reached in `n` steps. -/
def runToBoundary : Nat → State → Option State
  | 0, _ => none
  | n + 1, s => (nextState (step s)).bind fun t => if atBoundary t then some t else runToBoundary n t

/-- R88: the most steps of the main sequencer in one iteration: 8 in P1, 21 in P2, one each in P3 and P4, 3 in P5, and R201's
count in P6. -/
def iterationBound (cfg : Config) : Nat := 34 + cfg.npairs * (3 * cfg.width + 5)

/-- R72: one line's iteration: the scheduled moves, then "the main sequencer runs phases P1 to P6 with no asynchronous step in
between, the keys and the button holding their line's values throughout". -/
def runIteration (l : StimulusLine) (s : State) : Option State :=
  (s.stimulate l).bind fun t => (runSteps t.moves.length t).bind (runToBoundary (iterationBound s.cfg))

/-- One iteration for each line. -/
def runLines : List StimulusLine → State → Option State
  | [], s => some s
  | l :: rest, s => (runIteration l s).bind (runLines rest)

/-- R72: the run of a script, from a state at an iteration boundary; absent when the script names a character that is no key's
or the state is not at a boundary with nothing scheduled (assumption log 26). -/
def runScript (lines : List ScriptLine) (s : State) : Option State :=
  (expandScript (stimulusDefault s.cfg) lines).bind fun ls => runLines ls s

end Sys2Proof.Machine
end

