-- ==== Sys2Proof/Laws/Stimulus.lean ====
section
/-! SUPPORT. What running a stimulus script means in terms of the machine's own steps (R72). -/

namespace Sys2Proof.Laws

open Sys2Proof.Machine

variable {s t : State} {n : Nat} {l : StimulusLine}

theorem nextState_eq_some {r : Result} : nextState r = some t ↔ r = .next t := by
  cases r <;> simp [nextState]

/-- A line is scheduled only at an iteration boundary with nothing scheduled. -/
theorem stimulate_eq_some : s.stimulate l = some t ↔
    atBoundary s ∧ s.moves = [] ∧ t = { s with moves := stimulusMoves l s } := by
  unfold State.stimulate
  by_cases h : atBoundary s ∧ s.moves = []
  · rw [if_pos h]; simp only [Option.some.injEq]; exact ⟨fun e => ⟨h.1, h.2, e.symm⟩, fun e => e.2.2.symm⟩
  · rw [if_neg h]; simp only [reduceCtorEq, false_iff]; exact fun e => h ⟨e.1, e.2.1⟩

/-- A line schedules agents and inputs only, never the main sequencer. -/
theorem stimulusMoves_env {m : Move} (h : m ∈ stimulusMoves l s) : ∃ e, m = .env e := by
  simp only [stimulusMoves, completionsDue, List.mem_append, List.mem_replicate] at h
  rcases h with (h | h | h) | h
  · fin_cases h <;> exact ⟨_, rfl⟩
  · split_ifs at h <;> simp_all
  · split_ifs at h <;> simp_all
  · exact ⟨_, h.2⟩

/-- One step more of the host's run. -/
theorem run_succ (n : Nat) (s : State) : Host.Core.run Sys2Proof.core (n + 1) s =
    (match step s with
      | .next u => Host.Core.run Sys2Proof.core n u
      | .fault f => .fault f
      | .refused r => .refused r : Result) := by
  have e : Sys2Proof.core.step s = step s := rfl
  cases h : step s <;> simp only [Host.Core.run, e, h] <;> rfl

theorem run_succ_next {u : State} (h : step s = .next u) :
    Host.Core.run Sys2Proof.core (n + 1) s = Host.Core.run Sys2Proof.core n u := by
  rw [run_succ, h]

/-- `runSteps` is the host's run. -/
theorem runSteps_eq_some : runSteps n s = some t ↔ Host.Core.run Sys2Proof.core n s = .next t := by
  induction n generalizing s with
  | zero => exact ⟨fun e => by cases e; rfl, fun e => by cases e; rfl⟩
  | succ n ih =>
    rw [run_succ, runSteps]
    cases step s with
    | next u => exact ih
    | fault f => exact ⟨(fun e => nomatch e), (fun e => nomatch e)⟩
    | refused r => exact ⟨(fun e => nomatch e), (fun e => nomatch e)⟩

/-- Running to the boundary takes at least one step, stops at a boundary, and stays within its bound. -/
theorem runToBoundary_eq_some (h : runToBoundary n s = some t) :
    ∃ k, 0 < k ∧ k ≤ n ∧ Host.Core.run Sys2Proof.core k s = .next t ∧ atBoundary t := by
  induction n generalizing s with
  | zero => simp [runToBoundary] at h
  | succ n ih =>
    simp only [runToBoundary, Option.bind_eq_some_iff, nextState_eq_some] at h
    obtain ⟨u, hu, h⟩ := h
    split_ifs at h with hb
    · cases h; exact ⟨1, Nat.one_pos, by omega, by rw [run_succ_next hu]; rfl, hb⟩
    · obtain ⟨k, h0, hk, hr, ht⟩ := ih h
      exact ⟨k + 1, by omega, by omega, by rw [run_succ_next hu]; exact hr, ht⟩

/-- R72: one line's iteration starts at a boundary, delivers the line's moves, and ends at the next boundary within the bound. -/
theorem runIteration_eq_some (h : runIteration l s = some t) : atBoundary s ∧ s.moves = [] ∧ atBoundary t ∧
    ∃ (u : State) (k : Nat), 0 < k ∧ k ≤ iterationBound s.cfg ∧
      Host.Core.run Sys2Proof.core (stimulusMoves l s).length { s with moves := stimulusMoves l s } = .next u ∧
      Host.Core.run Sys2Proof.core k u = .next t := by
  simp only [runIteration, Option.bind_eq_some_iff, stimulate_eq_some, runSteps_eq_some] at h
  obtain ⟨v, ⟨hb, hm, rfl⟩, u, hu, hr⟩ := h
  obtain ⟨k, h0, hk, hr, ht⟩ := runToBoundary_eq_some hr
  exact ⟨hb, hm, ht, u, k, h0, hk, hu, hr⟩

/-- R72: every key of the keypad is named by its own character. -/
theorem keyOfChar_char (r : Fin 4) (c : Fin 3) : keyOfChar keyLut[linearIndex r c].1 = some (r, c) := by
  revert r c; decide

end Sys2Proof.Laws
end

