-- ==== Sys2Proof/Tests/Slice0.lean ====
section
/-! SUPPORT. The model's own tests: expected values from the spec's tables and vectors (95_test_vectors.md), each test one step
on a small state; and, for every statement with hypotheses, a named witness that meets them. -/

namespace Sys2Proof.Tests

open Sys2Proof.Machine

/-! ### Small states -/

/-- A small geometry with the reference parameters otherwise. -/
def small : Config := { Config.reference with
  width := 8, npairs := 4, width_pos := by decide, width_le := by decide, npairs_pos := by decide, npairs_le := by decide }

/-- The geometry of the spec's worked trace R214. -/
def tiny : Config := { Config.reference with
  width := 2, npairs := 2, width_pos := by decide, width_le := by decide, npairs_pos := by decide, npairs_le := by decide }

/-- The reset state of the small geometry with the sample cells written. -/
def quiet : State := { State.resetWith small with sample := ⟨2050, 1950⟩ }

/-- The state after an instruction. -/
def after (i : Instr) (s : State) : State :=
  match exec i s with
  | .next t => t
  | _ => s

/-- The state after one step. -/
def stepped (s : State) : State :=
  match step s with
  | .next t => t
  | _ => s

/-- A state about to tick, with these samples. -/
def ticking (jx jy : Nat) (x y : Int) : State := { quiet with seq := .p5 .tick, joy := ⟨jx, jy⟩, cur := ⟨x, y⟩ }

/-! ### Well-formedness and decoding -/

theorem test_wf_refuses_assigned_value : Instr.wf (.k5Reserved 0x3#4) = false := by decide
theorem test_wf_refuses_last_assigned_value : Instr.wf (.k5Reserved 0xB#4) = false := by decide
theorem test_wf_accepts_reserved_value : Instr.wf (.k5Reserved 0xC#4) = true := by decide
theorem test_wf_accepts_nokey_nibble : Instr.wf (.nokey 0xF#4) = true := by decide

theorem test_key_word_too_wide : decodeNumber .k5 0x20 = .error .keyWordTooWide := by rfl
theorem test_mode_word_too_wide : decodeNumber .m6 0x40 = .error .modeWordTooWide := by rfl
theorem test_table_number_refused : decodeTableWord 8 0x40 = none := by decide
theorem test_table_number_key : decodeTableWord 8 0x1A = some .modeColor := by decide
theorem test_table_number_mode : decodeTableWord 8 0x23 = some .drawLine := by decide
theorem test_table_number_five_bits : decodeTableWord 5 0x1E = some (.k5Reserved 0xE#4) := by decide
theorem test_table_number_six_bits : decodeTableWord 6 0x13 = some .fillDo3 := by decide

/-! Every constructor's word, written out from R62, R64, R66, R68 and R69. -/

theorem test_decode_key_words :
  decode (.k5 0b00000#5) = .nokey 0x0#4 ∧
  decode (.k5 0b10001#5) = .sel1 ∧
  decode (.k5 0b10010#5) = .sel2 ∧
  decode (.k5 0b10011#5) = .sel3 ∧
  decode (.k5 0b10100#5) = .sel4 ∧
  decode (.k5 0b10101#5) = .sel5 ∧
  decode (.k5 0b10110#5) = .sel6 ∧
  decode (.k5 0b10111#5) = .sel7 ∧
  decode (.k5 0b11000#5) = .sel8 ∧
  decode (.k5 0b11001#5) = .modeSpeed ∧
  decode (.k5 0b11010#5) = .modeColor ∧
  decode (.k5 0b10000#5) = .modeFill ∧
  decode (.k5 0b11011#5) = .modeDraw ∧
  decode (.k5 0b11100#5) = .k5Reserved 0xC#4 := by decide

theorem test_decode_color_words :
  decode (.m6 0b000000#6) = .colorUnreachable0 ∧
  decode (.m6 0b000001#6) = .colorSet1 ∧
  decode (.m6 0b000010#6) = .colorSet2 ∧
  decode (.m6 0b000011#6) = .colorSet3 ∧
  decode (.m6 0b000100#6) = .colorSet4 ∧
  decode (.m6 0b000101#6) = .colorSet5 ∧
  decode (.m6 0b000110#6) = .colorSet6 ∧
  decode (.m6 0b000111#6) = .colorSet7 ∧
  decode (.m6 0b001000#6) = .colorSet8 ∧
  decode (.m6 0b001001#6) = .colorUnreachable9 ∧
  decode (.m6 0b001010#6) = .colorUnreachableA ∧
  decode (.m6 0b001011#6) = .colorUnreachableB ∧
  decode (.m6 0b001100#6) = .colorUnreachableC ∧
  decode (.m6 0b001101#6) = .colorUnreachableD ∧
  decode (.m6 0b001110#6) = .colorUnreachableE ∧
  decode (.m6 0b001111#6) = .colorNone := by decide

theorem test_decode_fill_words :
  decode (.m6 0b010000#6) = .fillUnreachable0 ∧
  decode (.m6 0b010001#6) = .fillDo1 ∧
  decode (.m6 0b010010#6) = .fillDo2 ∧
  decode (.m6 0b010011#6) = .fillDo3 ∧
  decode (.m6 0b010100#6) = .fillDo4 ∧
  decode (.m6 0b010101#6) = .fillDo5 ∧
  decode (.m6 0b010110#6) = .fillDo6 ∧
  decode (.m6 0b010111#6) = .fillDo7 ∧
  decode (.m6 0b011000#6) = .fillDo8 ∧
  decode (.m6 0b011001#6) = .fillUnreachable9 ∧
  decode (.m6 0b011010#6) = .fillUnreachableA ∧
  decode (.m6 0b011011#6) = .fillUnreachableB ∧
  decode (.m6 0b011100#6) = .fillUnreachableC ∧
  decode (.m6 0b011101#6) = .fillUnreachableD ∧
  decode (.m6 0b011110#6) = .fillUnreachableE ∧
  decode (.m6 0b011111#6) = .fillNone := by decide

theorem test_decode_draw_words :
  decode (.m6 0b100000#6) = .drawUnreachable0 ∧
  decode (.m6 0b100001#6) = .drawFree ∧
  decode (.m6 0b100010#6) = .drawTrace ∧
  decode (.m6 0b100011#6) = .drawLine ∧
  decode (.m6 0b100100#6) = .drawRect ∧
  decode (.m6 0b100101#6) = .drawTri ∧
  decode (.m6 0b100110#6) = .drawPat6 ∧
  decode (.m6 0b100111#6) = .drawPat7 ∧
  decode (.m6 0b101000#6) = .drawFill ∧
  decode (.m6 0b101001#6) = .drawUnreachable9 ∧
  decode (.m6 0b101010#6) = .drawUnreachableA ∧
  decode (.m6 0b101011#6) = .drawUnreachableB ∧
  decode (.m6 0b101100#6) = .drawUnreachableC ∧
  decode (.m6 0b101101#6) = .drawUnreachableD ∧
  decode (.m6 0b101110#6) = .drawUnreachableE ∧
  decode (.m6 0b101111#6) = .drawNone := by decide

theorem test_decode_speed_words :
  decode (.m6 0b110000#6) = .speedUnreachable0 ∧
  decode (.m6 0b110001#6) = .speedSet1 ∧
  decode (.m6 0b110010#6) = .speedSet2 ∧
  decode (.m6 0b110011#6) = .speedSet3 ∧
  decode (.m6 0b110100#6) = .speedSet4 ∧
  decode (.m6 0b110101#6) = .speedSet5 ∧
  decode (.m6 0b110110#6) = .speedSet6 ∧
  decode (.m6 0b110111#6) = .speedSet7 ∧
  decode (.m6 0b111000#6) = .speedSet8 ∧
  decode (.m6 0b111001#6) = .speedUnreachable9 ∧
  decode (.m6 0b111010#6) = .speedUnreachableA ∧
  decode (.m6 0b111011#6) = .speedUnreachableB ∧
  decode (.m6 0b111100#6) = .speedUnreachableC ∧
  decode (.m6 0b111101#6) = .speedUnreachableD ∧
  decode (.m6 0b111110#6) = .speedUnreachableE ∧
  decode (.m6 0b111111#6) = .speedNone := by decide


/-! ### Key instructions (V18) -/

theorem test_mode_color : ((after .modeColor { quiet with sel := 4#4 }).mode, (after .modeColor quiet).sel) = (.color, 0xF#4) := by decide
theorem test_mode_fill_keeps_accumulator :
    (after .modeFill { quiet with accRect := ⟨⟨1, 1⟩, .unset⟩ }).accRect = ⟨⟨1, 1⟩, .unset⟩ := by decide
theorem test_mode_speed_keeps_divisor : (after .modeSpeed { quiet with timerDiv := 4 }).timerDiv = 4 := by decide
theorem test_mode_draw_resets : (after .modeDraw { quiet with accTri := ⟨⟨1, 1⟩, .unset, .unset⟩ }).accTri = .unset := by decide
theorem test_sel3_not_in_draw_mode :
    (after .sel3 { quiet with mode := .color, sel := 0xF#4, accLine := ⟨⟨2, 2⟩, .unset⟩ }).accLine = ⟨⟨2, 2⟩, .unset⟩ := by decide
theorem test_sel5_activates :
    (after .sel5 { quiet with sel := 4#4, accTri := ⟨⟨2, 2⟩, .unset, .unset⟩ }).accTri = .unset := by decide
theorem test_sel4_keeps_other_tool :
    (after .sel4 { quiet with sel := 3#4, accLine := ⟨⟨1, 1⟩, .unset⟩ }).accLine = ⟨⟨1, 1⟩, .unset⟩ := by decide
theorem test_sel3_held : (after .sel3 { quiet with sel := 3#4, accLine := ⟨⟨2, 2⟩, .unset⟩ }).accLine = ⟨⟨2, 2⟩, .unset⟩ := by decide
theorem test_sel8 : (after .sel8 quiet).sel = 0b1000#4 := by decide

/-! ### Mode operations (V19) -/

theorem test_color_set3 : (after .colorSet3 quiet).drawColor = ⟨false, false, true⟩ := by decide
theorem test_color_set8_is_black : (after .colorSet8 quiet).drawColor = ⟨false, false, false⟩ := by decide
theorem test_fill_do3_last_cell : (after .fillDo3 quiet).fb.read 63 = ⟨false, false, true⟩ := by decide
theorem test_fill_do3_once : (after .fillDo3 { quiet with sel := 3#4 }).sel = 0xF#4 := by decide
theorem test_speed_set8 : (after .speedSet8 quiet).timerDiv = 8 := by decide
theorem test_free_discards_press : (after .drawFree { quiet with btnFlag := true }).btnFlag = false := by decide
theorem test_line_first_point :
    (after .drawLine { quiet with btnFlag := true }).accLine = ⟨⟨0, 0⟩, .unset⟩ := by decide
theorem test_line_second_point :
    (after .drawLine { quiet with btnFlag := true, accLine := ⟨⟨1, 1⟩, .unset⟩, cur := ⟨4, 1⟩ }).fb.map Prod.fst =
      [9, 10, 11, 12] := by decide
theorem test_rect_perimeter :
    (after .drawRect { quiet with btnFlag := true, accRect := ⟨⟨2, 2⟩, .unset⟩, cur := ⟨5, 5⟩ }).fb.map Prod.fst =
      [18, 19, 20, 21, 26, 29, 34, 37, 42, 43, 44, 45] := by decide
theorem test_tri_cells :
    (after .drawTri { quiet with btnFlag := true, accTri := ⟨⟨1, 1⟩, ⟨6, 3⟩, .unset⟩, cur := ⟨2, 6⟩ }).fb.length = 14 := by decide
theorem test_pat6_even_cell : (after .drawPat6 quiet).fb.read 9 = ⟨true, false, false⟩ := by decide
theorem test_pat7_odd_cell : (after .drawPat7 quiet).fb.read 8 = ⟨false, true, false⟩ := by decide
theorem test_draw_fill_keeps_sel : (after .drawFill { quiet with sel := 8#4 }).sel = 8#4 := by decide

/-! ### The movement tick (V20, R162, R163, R165) -/

theorem test_tick_below_band : (stepped (ticking 1149 1950 5 5)).cur = ⟨4, 5⟩ := by decide
theorem test_tick_band_low_end : (stepped (ticking 1150 1950 5 5)).cur = ⟨5, 5⟩ := by decide
theorem test_tick_band_high_end : (stepped (ticking 2950 2850 5 5)).cur = ⟨5, 5⟩ := by decide
theorem test_tick_above_band : (stepped (ticking 2951 2851 5 5)).cur = ⟨6, 6⟩ := by decide
theorem test_tick_clamped : (stepped (ticking 4095 0 7 0)).blinkCnt = 1 := by decide
theorem test_tick_trace_remembers : (stepped (ticking 2960 1950 0 0)).prevColor = ⟨true, false, false⟩ := by decide
theorem test_tick_toggle :
    (stepped { ticking 2050 1950 0 0 with sel := 1#4, blinkCnt := 4 }).fb.read 0 = ⟨true, true, true⟩ := by decide
theorem test_tick_edge :
    (stepped { ticking 2050 1950 0 0 with blinkCnt := 4, button := true }).btnFlag = true := by decide
theorem test_tick_held_is_no_edge :
    (stepped { ticking 2050 1950 0 0 with blinkCnt := 4, button := true, btnPrev := true }).btnFlag = false := by decide

/-! ### Agents, drain, keypad (V11, V17, R232) -/

theorem test_completion :
    (stepped { quiet with moves := [.env (.complete .y)], adcIn := ⟨0, 3000⟩ }).sample = ⟨2050, 3000⟩ := by decide
theorem test_timer_fires_past_divisor :
    (stepped { quiet with moves := [.env .baseTick], timerDiv := 2, timerCnt := 5 }).movementDue = true := by decide
theorem test_drain_restarts : (stepped { quiet with seq := .p1 .start, conv := ⟨.idle, .busy⟩ }).trace = [.start .x] := by decide
theorem test_rows_read : (stepped { quiet with
    seq := .p2 .sense, colI := 1, colDrive := #v[false, true, false], keysDown := [(2, 1), (0, 0)] }).scanMask = 0b0100#4 := by decide
theorem test_scan_key : (stepped { quiet with seq := .p2 .release, colI := 1, scanHit := some 2 }).key.v = 0x8#4 := by decide

/-! ### The stimulus script (R72) -/

/-- A line with key `8` and the defaults otherwise, then a line that leaves fields out and repeats twice. -/
theorem test_script_expands :
    expandScript (stimulusDefault small) [{ k := some [0x38#8] }, { jx := some 2960, t := some 1, times := 2 }] =
      some [⟨[(2, 1)], 2050, 1950, false, 0⟩, ⟨[(2, 1)], 2960, 1950, false, 1⟩, ⟨[(2, 1)], 2960, 1950, false, 1⟩] := by decide
theorem test_script_dash_releases :
    (ScriptLine.complete ⟨[(2, 1)], 1, 2, true, 3⟩ { k := some [] }) = some ⟨[], 1, 2, true, 3⟩ := by decide
theorem test_script_unknown_key : keysOfChars [0x31#8, 0x41#8] = none := by decide
theorem test_line_only_at_boundary : (State.stimulate (stimulusDefault small) { quiet with axisI := .y }).isNone = true := by decide
theorem test_line_schedule : stimulusMoves ⟨[], 9, 8, true, 1⟩ { quiet with conv := ⟨.busy, .idle⟩ } =
    [.env (.setKeys []), .env (.setAdc .x 9), .env (.setAdc .y 8), .env (.setButton true), .env (.complete .x), .env .baseTick] := by
  decide

/-! ### The fixed interface -/

theorem test_fetch_key_word : keyInstr (quiet.withFetchWord 8 0x1B) = .modeDraw := by decide
theorem test_fetch_mode_word_runs : (stepped (quiet.withFetchWord 8 0x38)).timerDiv = 8 := by decide

/-! ### Witnesses: every statement's hypotheses are met by some state and operands -/

theorem witness_DecodeOfEncode : (Instr.k5Reserved 0xC#4).wf = true ∧ (Instr.k5Reserved 0xF#4).wf = true ∧ Instr.sel1.wf = true := by decide

theorem witness_StepRunsDecodedInstruction_key :
    mainNext { quiet with seq := .p3, key := keyFound 3 2 } ∧
      decode (.k5 (makeKeyWord (keyFound 3 2).pressed (keyFound 3 2).v)) = .modeDraw := by decide

theorem witness_StepRunsDecodedInstruction_mode :
    mainNext { quiet with seq := .p4, moves := [.main] } ∧ decode (.m6 (makeModeWord quiet.mode.bits quiet.sel)) = .drawTrace := by decide

theorem witness_KeyCodeMap : (3, 2, 11, 0x23#8, 0xB#4, 0x1B#5, Instr.modeDraw) ∈
      ([(0, 0, 0, 0x31#8, 0x1#4, 0x11#5, .sel1), (0, 1, 1, 0x32#8, 0x2#4, 0x12#5, .sel2),
        (0, 2, 2, 0x33#8, 0x3#4, 0x13#5, .sel3), (1, 0, 3, 0x34#8, 0x4#4, 0x14#5, .sel4),
        (1, 1, 4, 0x35#8, 0x5#4, 0x15#5, .sel5), (1, 2, 5, 0x36#8, 0x6#4, 0x16#5, .sel6),
        (2, 0, 6, 0x37#8, 0x7#4, 0x17#5, .sel7), (2, 1, 7, 0x38#8, 0x8#4, 0x18#5, .sel8),
        (2, 2, 8, 0x39#8, 0x9#4, 0x19#5, .modeSpeed), (3, 0, 9, 0x2A#8, 0xA#4, 0x1A#5, .modeColor),
        (3, 1, 10, 0x30#8, 0x0#4, 0x10#5, .modeFill), (3, 2, 11, 0x23#8, 0xB#4, 0x1B#5, .modeDraw)] :
        List (Fin 4 × Fin 3 × Fin 12 × BitVec 8 × BitVec 4 × BitVec 5 × Instr)) := by decide

theorem witness_UnreachableWordsConsumeTheButton : Instr.speedUnreachableE ∈ [Instr.colorUnreachable0, .colorUnreachable9, .colorUnreachableA, .colorUnreachableB, .colorUnreachableC,
      .colorUnreachableD, .colorUnreachableE, .fillUnreachable0, .fillUnreachable9, .fillUnreachableA, .fillUnreachableB,
      .fillUnreachableC, .fillUnreachableD, .fillUnreachableE, .drawUnreachable0, .drawUnreachable9, .drawUnreachableA,
      .drawUnreachableB, .drawUnreachableC, .drawUnreachableD, .drawUnreachableE, .speedUnreachable0, .speedUnreachable9,
      .speedUnreachableA, .speedUnreachableB, .speedUnreachableC, .speedUnreachableD, .speedUnreachableE] := by decide

theorem witness_SelectionKeys : (Instr.sel8, 8#4) ∈ [(Instr.sel1, 1#4), (.sel2, 2#4), (.sel3, 3#4), (.sel4, 4#4), (.sel5, 5#4), (.sel6, 6#4), (.sel7, 7#4), (.sel8, 8#4)] := by decide

theorem witness_ReservedKeysWriteNothing : 0xC#4 ≤ 0xC#4 ∧ 0xC#4 ≤ 0xF#4 := by decide

theorem witness_ModeTable : mainNext { quiet with seq := .p3, key := keyFound 0 0 } := by decide

theorem witness_RepeatedKeyChangesNothing : ∃ t, exec (decode (.k5 0x13#5)) quiet = .next t ∧ t.sel = 3#4 := ⟨_, rfl, by decide⟩

theorem witness_ColorSetWritesDrawColor : (Instr.colorSet8, 8#4, (7 : Fin 8)) ∈ [(Instr.colorSet1, 1#4, (0 : Fin 8)), (.colorSet2, 2#4, 1), (.colorSet3, 3#4, 2), (.colorSet4, 4#4, 3), (.colorSet5, 5#4, 4), (.colorSet6, 6#4, 5), (.colorSet7, 7#4, 6), (.colorSet8, 8#4, 7)] := by decide

theorem witness_SpeedSetWritesDivisor : (Instr.speedSet8, 8#4, (7 : Fin 8)) ∈ [(Instr.speedSet1, 1#4, (0 : Fin 8)), (.speedSet2, 2#4, 1), (.speedSet3, 3#4, 2), (.speedSet4, 4#4, 3), (.speedSet5, 5#4, 4), (.speedSet6, 6#4, 5), (.speedSet7, 7#4, 6), (.speedSet8, 8#4, 7)] := by decide

theorem witness_IdleWordsConsumeTheButton : (Instr.drawNone, 0x2F#6) ∈ [(Instr.colorNone, 0x0F#6), (.fillNone, 0x1F#6), (.drawNone, 0x2F#6), (.speedNone, 0x3F#6), (.drawFree, 0x21#6),
      (.drawTrace, 0x22#6)] := by decide

theorem witness_FillDoFillsOnce : (Instr.fillDo8, 8#4, (7 : Fin 8)) ∈ [(Instr.fillDo1, 1#4, (0 : Fin 8)), (.fillDo2, 2#4, 1), (.fillDo3, 3#4, 2), (.fillDo4, 4#4, 3), (.fillDo5, 5#4, 4), (.fillDo6, 6#4, 5), (.fillDo7, 7#4, 6), (.fillDo8, 8#4, 7)] := by decide

/-- A press with the cursor in the far corner of the buffer. -/
def pressed : State := { quiet with btnFlag := true, cur := ⟨7, 7⟩ }

theorem witness_LineTool_no_press : pointInBounds quiet.cfg quiet.cur ∧ BufferOk quiet ∧ quiet.accLine.slot1 = .unset ∧ quiet.btnFlag = false := by decide
theorem witness_LineTool_first : pointInBounds pressed.cfg pressed.cur ∧ BufferOk pressed ∧ pressed.accLine.slot1 = .unset ∧
    pressed.btnFlag = true ∧ pressed.accLine.slot0 = .unset := by decide
theorem witness_LineTool_second : let s : State := { pressed with accLine := ⟨⟨0, 0⟩, .unset⟩ }
    pointInBounds s.cfg s.cur ∧ BufferOk s ∧ s.accLine.slot1 = .unset ∧ s.btnFlag = true ∧ s.accLine.slot0 ≠ .unset := by decide
theorem witness_RectangleTool_no_press : pointInBounds quiet.cfg quiet.cur ∧ BufferOk quiet ∧ quiet.accRect.slot1 = .unset ∧ quiet.btnFlag = false := by decide
theorem witness_RectangleTool_first : pointInBounds pressed.cfg pressed.cur ∧ BufferOk pressed ∧ pressed.accRect.slot1 = .unset ∧
    pressed.btnFlag = true ∧ pressed.accRect.slot0 = .unset := by decide
theorem witness_RectangleTool_second : let s : State := { pressed with accRect := ⟨⟨0, 0⟩, .unset⟩ }
    pointInBounds s.cfg s.cur ∧ BufferOk s ∧ s.accRect.slot1 = .unset ∧ s.btnFlag = true ∧ s.accRect.slot0 ≠ .unset := by decide
theorem witness_TriangleTool_no_press : pointInBounds quiet.cfg quiet.cur ∧ BufferOk quiet ∧ quiet.accTri.slot2 = .unset ∧ quiet.btnFlag = false := by decide
theorem witness_TriangleTool_first : pointInBounds pressed.cfg pressed.cur ∧ BufferOk pressed ∧ pressed.accTri.slot2 = .unset ∧
    pressed.btnFlag = true ∧ pressed.accTri.slot0 = .unset := by decide
theorem witness_TriangleTool_second : let s : State := { pressed with accTri := ⟨⟨0, 0⟩, .unset, .unset⟩ }
    pointInBounds s.cfg s.cur ∧ BufferOk s ∧ s.accTri.slot2 = .unset ∧ s.btnFlag = true ∧ s.accTri.slot0 ≠ .unset ∧
      s.accTri.slot1 = .unset := by decide
theorem witness_TriangleTool_third : let s : State := { pressed with accTri := ⟨⟨0, 0⟩, ⟨7, 0⟩, .unset⟩ }
    pointInBounds s.cfg s.cur ∧ BufferOk s ∧ s.accTri.slot2 = .unset ∧ s.btnFlag = true ∧ s.accTri.slot0 ≠ .unset ∧
      s.accTri.slot1 ≠ .unset := by decide

theorem witness_DrawIsBoundsChecked_inside : BufferOk quiet ∧ inBounds quiet.cfg 7 7 ∧ inBounds quiet.cfg 0 0 := by decide
theorem witness_DrawIsBoundsChecked_outside :
    BufferOk quiet ∧ ¬ inBounds quiet.cfg 8 0 ∧ ¬ inBounds quiet.cfg 0 8 ∧ ¬ inBounds quiet.cfg (-1) (-1) := by decide

theorem witness_StraightLinesAreExact : let p : Point := ⟨2, 7⟩; let q : Point := ⟨2, 3⟩
    q.x = p.x ∨ q.y = p.y ∨ (q.x - p.x).natAbs = (q.y - p.y).natAbs := by decide

theorem witness_LineIsConnectedInItsBox : (⟨2, 1⟩ : Point) ∈ lineCells ⟨0, 0⟩ ⟨5, 2⟩ := by decide

theorem witness_TickMovesTheCursor : let s := ticking 4095 0 7 7
    mainNext s ∧ s.seq = .p5 .tick ∧ pointInBounds s.cfg s.cur := by decide
theorem witness_MovingTick : let s := ticking 2951 1049 0 7
    mainNext s ∧ s.seq = .p5 .tick ∧ pointInBounds s.cfg s.cur ∧ BufferOk s ∧ (moveCursor s).cur ≠ s.cur := by decide
theorem witness_StationaryTickCounts : let s := { ticking 2950 1050 7 7 with blinkCnt := 3 }
    mainNext s ∧ s.seq = .p5 .tick ∧ pointInBounds s.cfg s.cur ∧ BufferOk s ∧ (moveCursor s).cur = s.cur ∧
      s.blinkCnt + 1 ≠ s.cfg.blinkThreshold := by decide
theorem witness_StationaryTickToggles : let s := { ticking 2950 1050 7 7 with blinkCnt := 4 }
    mainNext s ∧ s.seq = .p5 .tick ∧ pointInBounds s.cfg s.cur ∧ BufferOk s ∧ (moveCursor s).cur = s.cur ∧
      s.blinkCnt + 1 = s.cfg.blinkThreshold := by decide
theorem witness_CursorRangeWithReferenceConstants : ((30 : Int) < 31) ∧ (0 : Int) ≤ 31 ∧ (31 : Int) ≤ 31 ∧ (0 : Int) ≤ 15 ∧ (15 : Int) ≤ 15 := by decide

theorem witness_CompletionStep_busy :
    let s : State := { quiet with moves := [.env (.complete .x)] }
    s.moves = .env (.complete .x) :: [] ∧ s.conv.x = .busy := by decide
theorem witness_CompletionStep_busy_y :
    let s : State := { quiet with moves := [.env (.complete .y)] }
    s.moves = .env (.complete .y) :: [] ∧ s.conv.y = .busy := by decide
theorem witness_CompletionStep_idle :
    let s : State := { quiet with moves := [.env (.complete .x)], conv := ⟨.idle, .idle⟩ }
    s.moves = .env (.complete .x) :: [] ∧ s.conv.x = .idle := by decide
theorem witness_CompletionStep_idle_y :
    let s : State := { quiet with moves := [.env (.complete .y)], conv := ⟨.idle, .idle⟩ }
    s.moves = .env (.complete .y) :: [] ∧ s.conv.y = .idle := by decide
theorem witness_TimerStep : ({ quiet with moves := [.env .baseTick] } : State).moves = .env .baseTick :: [] := by decide
theorem witness_InterruptsCommute : EnvMove.complete .y ∈ [EnvMove.complete .x, .complete .y, .baseTick] ∧
    EnvMove.baseTick ∈ [EnvMove.complete .x, .complete .y, .baseTick] := by decide
theorem witness_AgentsTouchOnlyTheirOwnCells :
    ({ quiet with moves := [.env (.setAdc .y 4095), .main] } : State).moves = .env (.setAdc .y 4095) :: [.main] := by decide
theorem witness_MovementGate_clear : let s : State := { quiet with seq := .p5 .test }
    mainNext s ∧ s.seq = .p5 .test ∧ s.movementDue = false := by decide
theorem witness_MovementGate_set : let s : State := { quiet with seq := .p5 .test, movementDue := true }
    mainNext s ∧ s.seq = .p5 .test ∧ s.movementDue = true := by decide
theorem witness_MovementGate_clearing : let s : State := { quiet with seq := .p5 .clear, movementDue := true }
    mainNext s ∧ s.seq = .p5 .clear := by decide
theorem witness_DrainPhase : quiet.seq = .p1 .test ∧ quiet.axisI = .x ∧ quiet.moves = [] := by decide
theorem witness_KeypadSweep : let s : State := { quiet with seq := .p2 .drive, keysDown := [(3, 2)] }
    s.seq = .p2 .drive ∧ s.colI = 0 ∧ s.rowI = 0 ∧ s.scanMask = 0#4 ∧ s.scanHit = none ∧
      s.colDrive = #v[false, false, false] ∧ s.moves = [] := by decide
theorem witness_RefreshPass : let s : State := { quiet with seq := .p6 .outputOff }
    s.seq = .p6 .outputOff ∧ s.pairI = 0 ∧ s.colmI = 0 ∧ s.moves = [] := by decide
theorem witness_RefreshCountsAndColors : let s : State := { quiet with seq := .p6 .outputOff }
    s.seq = .p6 .outputOff ∧ s.pairI = 0 ∧ s.colmI = 0 ∧ s.moves = [] ∧ 0 < s.cfg.npairs * s.cfg.width ∧
      31 < s.cfg.npairs * s.cfg.width := by decide
theorem witness_WorkedRefreshTrace : tiny.width = 2 ∧ tiny.npairs = 2 ∧ tiny.oeAfterLatch = false ∧ tiny.addrAfter = .next := by decide
theorem witness_RefreshWritesOnlyPorts : let s : State := { quiet with seq := .p6 .address, pairI := 3 }
    mainNext s ∧ s.seq.phase = .p6 ∧ ∃ t, step s = .next t := ⟨by decide, by decide, _, rfl⟩
theorem witness_PortsChangeOnlyInTheirPhase : ∃ t, step { quiet with seq := .p5 .test } = .next t ∧
    ({ quiet with seq := .p5 .test } : State).seq.phase ≠ .p6 ∧ ({ quiet with seq := .p5 .test } : State).seq.phase ≠ .p2 :=
  ⟨_, rfl, by decide, by decide⟩
theorem witness_ParametersNeverChange : ∃ t, step { quiet with seq := .p4, mode := .speed } = .next t := ⟨_, rfl⟩
theorem witness_PhasesRunInOrder : ∃ t, step { quiet with seq := .p3 } = .next t ∧ t.seq.phase = .p4 := ⟨_, rfl, by decide⟩
theorem witness_OnlyKeysChangeModeAndSelection_mode :
    ∃ t, step { quiet with seq := .p3, key := keyFound 3 0 } = .next t ∧ t.mode ≠ quiet.mode ∧ t.sel ≠ quiet.sel :=
  ⟨_, rfl, by decide, by decide⟩
theorem witness_OnlyKeysChangeModeAndSelection_fill :
    ∃ t, step { quiet with seq := .p4, mode := .fill, sel := 3#4 } = .next t ∧ t.sel ≠ 3#4 := ⟨_, rfl, by decide⟩
theorem witness_EachRegisterHasItsWriter_tick :
    ∃ t, step (ticking 2951 1950 0 0) = .next t ∧ t.cur ≠ (ticking 2951 1950 0 0).cur ∧ t.fb ≠ (ticking 2951 1950 0 0).fb :=
  ⟨_, rfl, by decide, by decide⟩
theorem witness_EachRegisterHasItsWriter_drawColor :
    ∃ t, step { quiet with seq := .p4, mode := .color } = .next t ∧ t.drawColor ≠ quiet.drawColor := ⟨_, rfl, by decide⟩
theorem witness_EachRegisterHasItsWriter_timerDiv :
    ∃ t, step { quiet with seq := .p4, mode := .speed } = .next t ∧ t.timerDiv ≠ quiet.timerDiv := ⟨_, rfl, by decide⟩
theorem witness_EachRegisterHasItsWriter_joy :
    ∃ t, step { quiet with seq := .p1 .read, sample := ⟨0, 0⟩ } = .next t ∧ t.joy ≠ quiet.joy := ⟨_, rfl, by decide⟩
theorem witness_EachRegisterHasItsWriter_key :
    ∃ t, step { quiet with seq := .p2 .release, scanHit := some 0 } = .next t ∧ t.key ≠ quiet.key := ⟨_, rfl, by decide⟩
theorem witness_EachRegisterHasItsWriter_fb :
    ∃ t, step { quiet with seq := .p4, sel := 8#4 } = .next t ∧ t.fb ≠ quiet.fb := ⟨_, rfl, by decide⟩
theorem witness_EachRegisterHasItsWriter_modeAndSel :
    ∃ t, step { quiet with seq := .p3, key := keyFound 3 0 } = .next t ∧ t.mode ≠ quiet.mode ∧ t.sel ≠ quiet.sel ∧ t.seq ≠ .p3 :=
  ⟨_, rfl, by decide, by decide, by decide⟩
theorem witness_EachRegisterHasItsWriter_accumulators :
    ∃ t, step { quiet with seq := .p4, sel := 3#4, btnFlag := true } = .next t ∧ t.accLine ≠ quiet.accLine := ⟨_, rfl, by decide⟩
theorem witness_EachRegisterHasItsWriter_axisI : ∃ t, step quiet = .next t ∧ t.axisI ≠ quiet.axisI := ⟨_, rfl, by decide⟩
theorem witness_EachRegisterHasItsWriter_columns :
    ∃ t, step { quiet with seq := .p2 .drive } = .next t ∧ t.colDrive ≠ quiet.colDrive := ⟨_, rfl, by decide⟩
theorem witness_EachRegisterHasItsWriter_pairI :
    ∃ t, step { quiet with seq := .p6 .address } = .next t ∧ t.pairI ≠ quiet.pairI ∧ t.rowAddr ≠ quiet.rowAddr :=
  ⟨_, rfl, by decide, by decide⟩
theorem witness_EachRegisterHasItsWriter_fresh : let s : State := { quiet with seq := .p1 .clear, fresh := ⟨true, false⟩ }
    mainNext s ∧ ∃ t, step s = .next t ∧ t.fresh ≠ s.fresh := ⟨by decide, _, rfl, by decide⟩
theorem witness_EachRegisterHasItsWriter_conv : let s : State := { quiet with seq := .p1 .start, conv := ⟨.idle, .busy⟩ }
    mainNext s ∧ ∃ t, step s = .next t ∧ t.conv ≠ s.conv := ⟨by decide, _, rfl, by decide⟩
theorem witness_EachRegisterHasItsWriter_movementDue : let s : State := { quiet with seq := .p5 .clear, movementDue := true }
    mainNext s ∧ ∃ t, step s = .next t ∧ t.movementDue ≠ s.movementDue := ⟨by decide, _, rfl, by decide⟩
theorem witness_EachRegisterHasItsWriter_btnFlag :
    ∃ t, step { quiet with seq := .p4, btnFlag := true } = .next t ∧ t.btnFlag ≠ true := ⟨_, rfl, by decide⟩

/-- The quiet state satisfies the invariant, so the statements with that hypothesis speak of some state. -/
theorem witness_Inv : Inv quiet where
  cursor := by decide
  selection := by decide
  accumulators := by decide
  samples := fun a => by cases a <;> decide
  timer := by decide
  blink := by decide
  buffer := by decide
  key := .inl rfl
  indices := by decide
  mailbox := fun a => by cases a <;> decide
  columns := by decide
  bus := by decide

theorem witness_EveryStepKeepsTheInvariant : Inv quiet ∧ ∃ t, step quiet = .next t := ⟨witness_Inv, _, rfl⟩

theorem witness_EveryStepKeepsTheTraceDiscipline : Inv quiet ∧ TraceOk quiet ∧ ∃ t, step quiet = .next t :=
  ⟨witness_Inv, ⟨rfl, (fun h => nomatch h), by decide⟩, _, rfl⟩

/-- The invariant does not read the schedule: it holds with other agents scheduled before and inside the iteration. -/
theorem witness_EveryIterationCompletes : let s : State := { quiet with moves := [.env .baseTick, .main, .env (.complete .x)] }
    Inv s ∧ atBoundary s ∧ s.moves ≠ [] :=
  ⟨⟨witness_Inv.cursor, witness_Inv.selection, witness_Inv.accumulators, witness_Inv.samples, witness_Inv.timer, witness_Inv.blink,
    witness_Inv.buffer, witness_Inv.key, witness_Inv.indices, witness_Inv.mailbox, witness_Inv.columns, witness_Inv.bus⟩,
    by decide, by decide⟩

end Sys2Proof.Tests
end

section
/-! PROOFS. What the phases P3 and P4 do: the state after the decoded instruction, as one function of the state each
(40_main_sequencer.md R84, R85; 43_mode_dispatcher.md; 44_mode_semantics.md). -/

namespace Sys2Proof.Proofs

open Sys2Proof.Machine Sys2Proof.Laws

/-! ### Decoding the two composed words -/

/-- R67: the nibble is a selection, 1 to 8. -/
abbrev isSelection (n : BitVec 4) : Prop := 1 ≤ n.toNat ∧ n.toNat ≤ 8

theorem makeKeyWord_pressed (p : Bool) (v : BitVec 4) : (makeKeyWord p v).pressed = p := by revert p v; decide

theorem makeKeyWord_v (p : Bool) (v : BitVec 4) : (makeKeyWord p v).v = v := by revert p v; decide

theorem makeModeWord_modeBits (b : BitVec 2) (n : BitVec 4) : (makeModeWord b n).modeBits = b := by revert b n; decide

theorem makeModeWord_selBits (b : BitVec 2) (n : BitVec 4) : (makeModeWord b n).selBits = n := by revert b n; decide

/-! ### Phase P3 -/

/-- R112 to R117: the effect of a pressed key with the nibble `v`. -/
def pressKey (v : BitVec 4) (s : State) : State :=
  if v = 0xA#4 then enterMode .color s
  else if v = 0x0#4 then enterMode .fill s
  else if v = 0xB#4 then resetAccumulators (enterMode .draw s)
  else if v = 0x9#4 then enterMode .speed s
  else if isSelection v then select v s
  else s

/-- R84, R111: the effect of P3's instruction. -/
def keyEffect (s : State) : State := if s.key.pressed then pressKey s.key.v s else s

theorem exec_decodePressed (v : BitVec 4) (s : State) : exec (decodePressed v) s = .next (pressKey v s) := by
  obtain ⟨⟨v, hv⟩⟩ := v
  interval_cases v <;> rfl

theorem keyInstr_eq (s : State) :
    keyInstr s = if s.key.pressed then decodePressed s.key.v else .nokey s.key.v := by
  unfold keyInstr decode keyWord
  simp only [decodeKeyWord, makeKeyWord_pressed, makeKeyWord_v]

theorem exec_keyInstr (s : State) : exec (keyInstr s) s = .next (keyEffect s) := by
  rw [keyInstr_eq, keyEffect]
  split_ifs
  · exact exec_decodePressed _ s
  · rfl

/-- R116, R118: a selection writes `sel` and the accumulators at most. -/
theorem select_frame (n : BitVec 4) (s : State) : select n s = { s with
    sel := n, accLine := (select n s).accLine, accRect := (select n s).accRect, accTri := (select n s).accTri } := by
  rcases select_cases n s with e | ⟨-, -, ⟨-, e⟩ | ⟨-, e⟩ | ⟨-, e⟩⟩ <;> rw [e]

/-- R84: P3 writes the mode, the selection and the accumulators at most. -/
theorem keyEffect_frame (s : State) : keyEffect s = { s with
    mode := (keyEffect s).mode, sel := (keyEffect s).sel, accLine := (keyEffect s).accLine,
    accRect := (keyEffect s).accRect, accTri := (keyEffect s).accTri } := by
  unfold keyEffect pressKey
  split_ifs with hp hA h0 hB h9 hs
  · rfl
  · rfl
  · rfl
  · rfl
  · rw [select_frame]
  · rfl
  · rfl

/-- R111: with no key pressed, P3 has no effect. -/
theorem keyEffect_of_not_pressed {s : State} (h : ¬ s.key.pressed = true) : keyEffect s = s := if_neg h

/-- R112 to R116: only a mode key changes the mode. -/
theorem keyEffect_mode_ne {s : State} (h : (keyEffect s).mode ≠ s.mode) :
    s.key.pressed = true ∧ s.key.v ∈ [0xA#4, 0x0#4, 0xB#4, 0x9#4] := by
  unfold keyEffect pressKey at h
  split_ifs at h with hp hA h0 hB h9 hs
  · exact ⟨hp, by simp [hA]⟩
  · exact ⟨hp, by simp [h0]⟩
  · exact ⟨hp, by simp [hB]⟩
  · exact ⟨hp, by simp [h9]⟩
  · rw [select_frame] at h; exact absurd rfl h
  · exact absurd rfl h
  · exact absurd rfl h

/-! ### Phase P4 -/

/-- R138 to R144, R149: the effect of a tool of Draw mode. -/
def drawTool (n : BitVec 4) (s : State) : State :=
  match n with
  | 3#4 => captureLine s
  | 4#4 => captureRect s
  | 5#4 => captureTri s
  | 6#4 => paint s.cfg.pattern6 s
  | 7#4 => paint s.cfg.pattern7 s
  | 8#4 => fill s.drawColor s
  | _ => s

/-- R131 to R144, R149: the effect of P4's operation, but for the button flag. -/
def modeEffect (s : State) : State :=
  match s.mode with
  | .color => if isSelection s.sel then setDrawColor s.sel s else s
  | .fill => if isSelection s.sel then fillOnce s.sel s else s
  | .draw => drawTool s.sel s
  | .speed => if isSelection s.sel then setDivisor s.sel s else s

section
variable {s : State}

theorem modeEffect_color (h : s.mode = .color) :
    modeEffect s = if isSelection s.sel then setDrawColor s.sel s else s := by unfold modeEffect; rw [h]

theorem modeEffect_fill (h : s.mode = .fill) :
    modeEffect s = if isSelection s.sel then fillOnce s.sel s else s := by unfold modeEffect; rw [h]

theorem modeEffect_draw (h : s.mode = .draw) : modeEffect s = drawTool s.sel s := by unfold modeEffect; rw [h]

theorem modeEffect_speed (h : s.mode = .speed) :
    modeEffect s = if isSelection s.sel then setDivisor s.sel s else s := by unfold modeEffect; rw [h]

end

theorem exec_decodeColorSel (n : BitVec 4) (s : State) : exec (decodeColorSel n) s =
    .next (consumeButton (if isSelection n then setDrawColor n s else s)) := by
  obtain ⟨⟨n, hn⟩⟩ := n
  interval_cases n <;> rfl

theorem exec_decodeFillSel (n : BitVec 4) (s : State) : exec (decodeFillSel n) s =
    .next (consumeButton (if isSelection n then fillOnce n s else s)) := by
  obtain ⟨⟨n, hn⟩⟩ := n
  interval_cases n <;> rfl

theorem exec_decodeDrawSel (n : BitVec 4) (s : State) : exec (decodeDrawSel n) s =
    .next (consumeButton (drawTool n s)) := by
  obtain ⟨⟨n, hn⟩⟩ := n
  interval_cases n <;> rfl

theorem exec_decodeSpeedSel (n : BitVec 4) (s : State) : exec (decodeSpeedSel n) s =
    .next (consumeButton (if isSelection n then setDivisor n s else s)) := by
  obtain ⟨⟨n, hn⟩⟩ := n
  interval_cases n <;> rfl

theorem exec_modeInstr (s : State) : exec (modeInstr s) s = .next (consumeButton (modeEffect s)) := by
  unfold modeInstr decode modeWord modeEffect
  simp only [decodeModeWord, makeModeWord_modeBits, makeModeWord_selBits]
  cases s.mode with
  | color => exact exec_decodeColorSel s.sel s
  | fill => exact exec_decodeFillSel s.sel s
  | draw => exact exec_decodeDrawSel s.sel s
  | speed => exact exec_decodeSpeedSel s.sel s

/-- R131: in Color mode P4 writes the draw colour at most. -/
theorem modeEffect_color_frame {s : State} (h : s.mode = .color) :
    modeEffect s = { s with drawColor := (modeEffect s).drawColor } := by
  rw [modeEffect_color h]; split_ifs <;> rfl

/-- R133: in Fill mode P4 writes the selection and the frame buffer at most. -/
theorem modeEffect_fill_frame {s : State} (h : s.mode = .fill) :
    modeEffect s = { s with sel := (modeEffect s).sel, fb := (modeEffect s).fb } := by
  rw [modeEffect_fill h]; split_ifs <;> rfl

/-- R133: the fill operation changes the selection to `NONE` only. -/
theorem modeEffect_fill_sel {s : State} (h : s.mode = .fill) (hne : (modeEffect s).sel ≠ s.sel) :
    (modeEffect s).sel = selNone := by
  rw [modeEffect_fill h] at hne ⊢
  split_ifs at hne ⊢
  · rfl
  · exact absurd rfl hne

/-- R135: in Speed mode P4 writes the divisor at most. -/
theorem modeEffect_speed_frame {s : State} (h : s.mode = .speed) :
    modeEffect s = { s with timerDiv := (modeEffect s).timerDiv } := by
  rw [modeEffect_speed h]; split_ifs <;> rfl

/-- R137 to R149: a tool writes the frame buffer and the accumulators at most. -/
theorem drawTool_frame (n : BitVec 4) (s : State) : drawTool n s = { s with
    fb := (drawTool n s).fb, accLine := (drawTool n s).accLine, accRect := (drawTool n s).accRect,
    accTri := (drawTool n s).accTri } := by
  unfold drawTool
  split
  · rcases captureLine_cases s with ⟨-, e⟩ | ⟨-, -, e⟩ | ⟨-, -, e⟩ <;> rw [e]
    rfl
  · rcases captureRect_cases s with ⟨-, e⟩ | ⟨-, -, e⟩ | ⟨-, -, e⟩ <;> rw [e]
    rfl
  · rcases captureTri_cases s with ⟨-, e⟩ | ⟨-, -, e⟩ | ⟨-, -, e⟩ <;> rw [e]
    rfl
  all_goals rfl

/-- R137 to R149: in Draw mode P4 writes the frame buffer and the accumulators at most. -/
theorem modeEffect_draw_frame {s : State} (h : s.mode = .draw) : modeEffect s = { s with
    fb := (modeEffect s).fb, accLine := (modeEffect s).accLine, accRect := (modeEffect s).accRect,
    accTri := (modeEffect s).accTri } := by
  rw [modeEffect_draw h]; exact drawTool_frame s.sel s

theorem modeEffect_seq (s : State) : (modeEffect s).seq = s.seq := by
  cases hm : s.mode with
  | color => rw [modeEffect_color_frame hm]
  | fill => rw [modeEffect_fill_frame hm]
  | draw => rw [modeEffect_draw_frame hm]
  | speed => rw [modeEffect_speed_frame hm]

end Sys2Proof.Proofs
end

section
/-! PROOFS. What each phase and each agent writes: one frame equation for each step function, and for each cell that a phase
writes only at some of its positions the value it gets (10_state.md R37). -/

namespace Sys2Proof.Proofs

open Sys2Proof.Machine Sys2Proof.Laws

variable {s t : State}

/-! ### Phase P1 -/

theorem drainStep_test_fresh (h : sampleFresh s.axisI s = true) : drainStep .test s = { s with seq := .p1 .clear } := if_pos h

theorem drainStep_test_not_fresh (h : ¬ sampleFresh s.axisI s = true) : drainStep .test s = drainNext s := if_neg h

/-- R94: P1 writes `joy` in the copy alone, clears the flag and starts the conversion of the axis it drains alone; besides,
it writes the axis index, the trace and the position. -/
theorem drainStep_eq (d : DrainPos) (s : State) : ∃ axisI seq trace, drainStep d s = { s with
    axisI := axisI, seq := seq, trace := trace,
    joy := if d = .read then s.joy.set s.axisI (readSample s.axisI s) else s.joy,
    fresh := if d = .clear then s.fresh.set s.axisI false else s.fresh,
    conv := if d = .start then s.conv.set s.axisI .busy else s.conv } := by
  cases d with
  | test =>
    by_cases hf : sampleFresh s.axisI s = true
    · exact ⟨_, _, _, drainStep_test_fresh hf⟩
    · rw [drainStep_test_not_fresh hf]
      rcases drainNext_cases s with ⟨-, e⟩ | ⟨-, e⟩ <;> exact ⟨_, _, _, e⟩
  | clear => exact ⟨_, _, _, rfl⟩
  | read => exact ⟨_, _, _, rfl⟩
  | start => rcases drainNext_cases (startConversion s.axisI s) with ⟨-, e⟩ | ⟨-, e⟩ <;> exact ⟨_, _, _, e⟩

/-! ### Phase P2 -/

/-- R100, R106: P2 writes `key`, the sweep's locals, the keypad's columns, the trace and the position at most. -/
theorem scanStep_frame (q : ScanPos) (s : State) : scanStep q s = { s with
    key := (scanStep q s).key, seq := (scanStep q s).seq, colI := (scanStep q s).colI, rowI := (scanStep q s).rowI,
    scanMask := (scanStep q s).scanMask, scanHit := (scanStep q s).scanHit, colDrive := (scanStep q s).colDrive,
    trace := (scanStep q s).trace } := by
  cases q with
  | drive => rfl
  | sense => rfl
  | rows =>
    obtain ⟨hit, -, ⟨r, -, e⟩ | ⟨-, e⟩⟩ := scanRow_cases s
    all_goals simp only [scanStep, e]
  | release =>
    rcases scanRelease_cases s with ⟨r0, -, e⟩ | ⟨-, c, -, e⟩ | ⟨-, -, e⟩
    all_goals simp only [scanStep, e]; rfl

/-- R100: `key` is written at the end of a sweep alone. -/
theorem scanStep_key_ne {q : ScanPos} (h : (scanStep q s).key ≠ s.key) : q = .release := by
  cases q with
  | drive => exact absurd rfl h
  | sense => exact absurd rfl h
  | rows =>
    obtain ⟨hit, -, ⟨r, -, e⟩ | ⟨-, e⟩⟩ := scanRow_cases s
    all_goals simp only [scanStep, e, ne_eq, not_true_eq_false] at h
  | release => rfl

/-! ### Phase P5 -/

/-- R160: a tick writes the cursor and its previous position, the blink's registers, the button's, the frame buffer and the
trace at most. -/
theorem tick_frame (h : tick s = some t) : t = { s with
    cur := t.cur, prev := t.prev, prevColor := t.prevColor, blinkCnt := t.blinkCnt, blinkOn := t.blinkOn,
    btnPrev := t.btnPrev, btnFlag := t.btnFlag, fb := t.fb, trace := t.trace } := by
  have hu : afterTrace s = { moveCursor (recordPrevious s) with fb := (afterTrace s).fb } := by
    unfold afterTrace; rw [traceDraw_eq]
  rcases tick_cases h with ⟨-, -, -, e⟩ | ⟨-, -, e⟩ | ⟨-, -, -, e⟩
  all_goals rw [e, hu]; rfl

/-- R166: a tick never clears the button's flag. -/
theorem tick_btnFlag (h : tick s = some t) (hne : t.btnFlag ≠ s.btnFlag) : t.btnFlag = true := by
  have hu : (afterTrace s).btnFlag = s.btnFlag := by unfold afterTrace; rw [traceDraw_eq]; rfl
  rcases tick_cases h with ⟨-, -, -, rfl⟩ | ⟨-, -, rfl⟩ | ⟨-, -, -, rfl⟩
  · exact absurd hu hne
  · exact absurd hu hne
  · cases hb : s.btnFlag <;> simp_all

/-- R86: what each position of the movement gate leads to. -/
theorem gateStep_eq_next {g : GatePos} (h : gateStep g s = .next t) :
    (g = .test ∧ s.movementDue = true ∧ t = { s with seq := .p5 .clear }) ∨
    (g = .test ∧ s.movementDue = false ∧ t = { s with seq := .p6 .outputOff }) ∨
    (g = .clear ∧ t = { s with movementDue := false, seq := .p5 .tick }) ∨
    (g = .tick ∧ ∃ u, tick s = some u ∧ t = { u with seq := .p6 .outputOff }) := by
  cases g with
  | test =>
    obtain rfl := Host.Outcome.next.inj h
    cases hd : s.movementDue <;> simp [readMovementDue, hd]
  | clear => exact .inr (.inr (.inl ⟨rfl, (Host.Outcome.next.inj h).symm⟩))
  | tick =>
    simp only [gateStep] at h
    split at h
    · rename_i u hu; exact .inr (.inr (.inr ⟨rfl, u, hu, (Host.Outcome.next.inj h).symm⟩))
    · cases h

/-! ### Phase P6 -/

/-- R87: a step of P6 writes its indices, the matrix ports, the trace and the position at most. -/
theorem refreshStep_frame {r : PassPos} (h : refreshStep r s = .next t) : t = { s with
    seq := t.seq, pairI := t.pairI, colmI := t.colmI, oe := t.oe, lat := t.lat, clk := t.clk, busUpper := t.busUpper,
    busLower := t.busLower, rowAddr := t.rowAddr, trace := t.trace } := by
  cases r with
  | setBus => obtain ⟨-, -, rfl⟩ := presentColumn_eq_next.mp h; rfl
  | clearBus =>
    obtain rfl := Host.Outcome.next.inj h
    rcases clearColumn_cases s with ⟨-, e⟩ | ⟨-, e⟩ <;> rw [e] <;> rfl
  | address =>
    obtain rfl := Host.Outcome.next.inj h
    rcases addressPair_cases s with ⟨-, e⟩ | ⟨-, e⟩ <;> rw [e] <;> rfl
  | outputOff | latchOff | pulse | latchOn | outputAfter => obtain rfl := Host.Outcome.next.inj h; rfl

/-! ### The agents and the inputs -/

/-- R37: the agents write the mailboxes and the timer's cells at most, a change of an input that input. -/
theorem envStep_frame (e : EnvMove) (s : State) : envStep e s = { s with
    sample := (envStep e s).sample, fresh := (envStep e s).fresh, conv := (envStep e s).conv,
    movementDue := (envStep e s).movementDue, timerCnt := (envStep e s).timerCnt, adcIn := (envStep e s).adcIn,
    button := (envStep e s).button, keysDown := (envStep e s).keysDown } := by
  cases e with
  | complete a => rcases completeConversion_cases a s with ⟨-, e⟩ | ⟨-, e⟩ <;> simp only [envStep, e]
  | baseTick => rcases timerFire_cases s with ⟨-, e⟩ | ⟨-, e⟩ <;> simp only [envStep, e]
  | setAdc a raw => rfl
  | setButton b => rfl
  | setKeys ks => rfl

theorem not_mainNext_of_env {e : EnvMove} {rest : List Move} (h : s.moves = .env e :: rest) : ¬ mainNext s := by
  simp [mainNext, h]

/-! ### The main sequencer's step -/

/-- R84: a step of P3, whatever key word it decodes. -/
theorem mainStep_keyEffect (h : s.seq = .p3) : mainStep s = .next { keyEffect s with seq := .p4 } := by
  rw [mainStep_p3 h, exec_keyInstr]; rfl

/-- R85, R148: a step of P4, whatever mode word it decodes. -/
theorem mainStep_modeEffect (h : s.seq = .p4) :
    mainStep s = .next { modeEffect s with btnFlag := false, seq := .p5 .test } := by
  rw [mainStep_p4 h, exec_modeInstr]; rfl

/-- R81: everything a step of the main sequencer can do, by its phase. -/
theorem mainStep_cases (h : mainStep s = .next t) :
    (∃ d, s.seq = .p1 d ∧ t = drainStep d s) ∨
    (∃ q, s.seq = .p2 q ∧ t = scanStep q s) ∨
    (s.seq = .p3 ∧ t = { keyEffect s with seq := .p4 }) ∨
    (s.seq = .p4 ∧ t = { modeEffect s with btnFlag := false, seq := .p5 .test }) ∨
    (∃ g, s.seq = .p5 g ∧ gateStep g s = .next t) ∨
    (∃ r, s.seq = .p6 r ∧ refreshStep r s = .next t) := by
  cases hs : s.seq with
  | p1 d =>
    rw [mainStep_p1 hs] at h
    exact .inl ⟨d, rfl, (Host.Outcome.next.inj h).symm⟩
  | p2 q =>
    rw [mainStep_p2 hs] at h
    exact .inr (.inl ⟨q, rfl, (Host.Outcome.next.inj h).symm⟩)
  | p3 =>
    rw [mainStep_keyEffect hs] at h
    exact .inr (.inr (.inl ⟨rfl, (Host.Outcome.next.inj h).symm⟩))
  | p4 =>
    rw [mainStep_modeEffect hs] at h
    exact .inr (.inr (.inr (.inl ⟨rfl, (Host.Outcome.next.inj h).symm⟩)))
  | p5 g =>
    rw [mainStep_p5 hs] at h
    exact .inr (.inr (.inr (.inr (.inl ⟨g, rfl, h⟩))))
  | p6 r =>
    rw [mainStep_p6 hs] at h
    exact .inr (.inr (.inr (.inr (.inr ⟨r, rfl, h⟩))))

/-- R50: every step is the main sequencer's or another agent's, taken from the state without its schedule's first entry. -/
theorem step_cases (h : step s = .next t) : ∃ (u : State) (ms : List Move), s = { u with moves := ms } ∧
    ((mainNext s ∧ mainStep u = .next t) ∨ (¬ mainNext s ∧ ∃ e, t = envStep e u)) := by
  rcases step_turn s with hm | ⟨e, rest, hmv⟩
  · exact ⟨{ s with moves := s.moves.tail }, s.moves, rfl, .inl ⟨hm, step_main hm ▸ h⟩⟩
  · rw [step_env hmv] at h
    exact ⟨{ s with moves := rest }, s.moves, rfl, .inr ⟨not_mainNext_of_env hmv, e, (Host.Outcome.next.inj h).symm⟩⟩

end Sys2Proof.Proofs
end

section
/-! PROOFS. Who writes what over one step of the whole machine (10_state.md R11 to R37), and the reset state (R38). -/

namespace Sys2Proof.Proofs

open Sys2Proof.Machine Sys2Proof.Laws

/-- Settles O42, by the agent that steps. -/
theorem agentsTouchOnlyTheirOwnCells : Obligations.AgentsTouchOnlyTheirOwnCells := by
  intro s e rest h
  refine ⟨_, step_env h, ?_⟩
  cases e with
  | complete a =>
    rcases completeConversion_cases a { s with moves := rest } with ⟨-, e⟩ | ⟨-, e⟩
    all_goals simp only [envStep, e]; cases a <;> rfl
  | baseTick =>
    rcases timerFire_cases { s with moves := rest } with ⟨-, e⟩ | ⟨-, e⟩ <;> simp only [envStep, e]
  | setAdc a raw => cases a <;> rfl
  | setButton b => rfl
  | setKeys ks => rfl

/-- R36 for the main sequencer: each phase's frame keeps the parameters. -/
theorem mainStep_cfg {s t : State} (h : mainStep s = .next t) : t.cfg = s.cfg := by
  rcases mainStep_cases h with ⟨d, -, rfl⟩ | ⟨q, -, rfl⟩ | ⟨-, rfl⟩ | ⟨-, rfl⟩ | ⟨g, -, hg⟩ | ⟨r, -, hr⟩
  · obtain ⟨_, _, _, e⟩ := drainStep_eq d s
    rw [e]
  · rw [scanStep_frame]
  · rw [keyEffect_frame]
  · cases hm : s.mode with
    | color => rw [modeEffect_color_frame hm]
    | fill => rw [modeEffect_fill_frame hm]
    | draw => rw [modeEffect_draw_frame hm]
    | speed => rw [modeEffect_speed_frame hm]
  · rcases gateStep_eq_next hg with ⟨-, -, rfl⟩ | ⟨-, -, rfl⟩ | ⟨-, rfl⟩ | ⟨-, u, hu, rfl⟩
    · rfl
    · rfl
    · rfl
    · rw [tick_frame hu]
  · rw [refreshStep_frame hr]

/-- Settles O51. -/
theorem parametersNeverChange : Obligations.ParametersNeverChange := by
  intro s t h
  obtain ⟨u, ms, rfl, ⟨-, h⟩ | ⟨-, e, rfl⟩⟩ := step_cases h
  · exact mainStep_cfg (s := u) h
  · rw [envStep_frame]

/-- Settles O54: the frame of the phase that steps leaves the clauses of the cells the phase writes. -/
theorem eachRegisterHasItsWriter : Obligations.EachRegisterHasItsWriter := by
  intro s t hstep
  obtain ⟨u, ms, hu, ⟨hm, h⟩ | ⟨hm, e, rfl⟩⟩ := step_cases hstep
  swap
  · rw [envStep_frame, hu]
    simp [← hu, eq_false hm]
  simp only [eq_true hm, true_and, true_implies]
  subst hu
  rcases mainStep_cases h with ⟨d, hs, rfl⟩ | ⟨q, hs, rfl⟩ | ⟨hs, rfl⟩ | ⟨hs, rfl⟩ | ⟨g, hs, hg⟩ | ⟨r, hs, hr⟩
  · obtain ⟨_, _, _, e⟩ := drainStep_eq d u
    rw [e]
    simp +contextual [hs, SeqPos.phase]
  · have hk := scanStep_key_ne (s := u) (q := q)
    rw [scanStep_frame]
    simpa [hs, SeqPos.phase] using hk
  · by_cases hp : u.key.pressed = true
    · rw [keyEffect_frame]
      simp [hs, hp]
    · rw [keyEffect_of_not_pressed hp]
      simp
  · cases hmode : u.mode with
    | color => rw [modeEffect_color_frame hmode]; simp [hs, hmode]
    | fill => rw [modeEffect_fill_frame hmode]; simp [hs, hmode]
    | draw => rw [modeEffect_draw_frame hmode]; simp [hs, hmode]
    | speed => rw [modeEffect_speed_frame hmode]; simp [hs, hmode]
  · rcases gateStep_eq_next hg with ⟨-, -, rfl⟩ | ⟨-, -, rfl⟩ | ⟨rfl, rfl⟩ | ⟨rfl, v, hv, rfl⟩
    · simp
    · simp
    · simp [hs]
    · have hb := tick_btnFlag hv
      rw [tick_frame hv]
      simpa [hs] using hb
  · rw [refreshStep_frame hr]
    simp [hs, SeqPos.phase]

/-- Settles O53, from O54 and what P3 and P4 do to the two registers. -/
theorem onlyKeysChangeModeAndSelection : Obligations.OnlyKeysChangeModeAndSelection := by
  intro s t h
  obtain ⟨-, hmode, hsel, -⟩ := eachRegisterHasItsWriter s t h
  constructor
  · intro hne
    obtain ⟨hm, hs, hp⟩ := hmode hne
    rw [step_main hm, mainStep_keyEffect (s := { s with moves := s.moves.tail }) hs] at h
    obtain rfl := Host.Outcome.next.inj h
    exact ⟨hm, hs, keyEffect_mode_ne (s := { s with moves := s.moves.tail }) hne⟩
  · intro hne
    obtain ⟨hm, hs | ⟨hs, hf⟩⟩ := hsel hne
    · exact ⟨hm, .inl hs⟩
    · rw [step_main hm, mainStep_modeEffect (s := { s with moves := s.moves.tail }) hs] at h
      obtain rfl := Host.Outcome.next.inj h
      exact ⟨hm, .inr ⟨hs, hf, modeEffect_fill_sel (s := { s with moves := s.moves.tail }) hf hne⟩⟩

/-- R31: the reset buffer holds `FB_INIT` in the cell of every number. -/
theorem read_initialCells (cfg : Config) {a : Nat} (h : a < cellCount cfg) :
    (initialCells cfg).read a = cfg.fbInit.colorAt cfg.width (a % cfg.width) (a / cfg.width) :=
  read_filterMap (fun a => cfg.fbInit.colorAt cfg.width (a % cfg.width) (a / cfg.width)) (Nat.zero_le a) (by
    unfold cellCount at h; omega)

/-- R38: `FB[x][y] = FB_INIT(x, y)` in every cell. -/
theorem initialCells_holdsEverywhere (cfg : Config) :
    holdsEverywhere cfg (cfg.fbInit.colorAt cfg.width) (initialCells cfg) := by
  refine ⟨wf_resetWith cfg, fun x y hx hy => ?_⟩
  have hlt : y * cfg.width + x < cellCount cfg := by
    have : (y + 1) * cfg.width ≤ cfg.height * cfg.width := Nat.mul_le_mul_right _ hy
    unfold cellCount; rw [Nat.mul_comm cfg.width]; linarith
  rw [read_initialCells cfg hlt, Nat.mul_comm y, Nat.mul_add_mod, Nat.mod_eq_of_lt hx, Nat.mul_add_div (by omega),
    Nat.div_eq_of_lt hx, Nat.add_zero]

/-- Settles O55: the registers by definition, the frame buffer by what its initial cells hold. -/
theorem resetState : Obligations.ResetState := by
  refine ⟨rfl, fun cfg => ⟨_, rfl, ?_⟩⟩
  have hfb := initialCells_holdsEverywhere cfg
  have h0 : (initialCells cfg).read 0 = cfg.fbInit.colorAt cfg.width 0 0 := by
    have hh : 0 < cfg.height := by have := cfg.npairs_pos; unfold Config.height; omega
    simpa using hfb.2 0 0 cfg.width_pos hh
  simp [State.resetWith, SeqPos.phase, Acc2.unset, Acc3.unset, h0, hfb]

end Sys2Proof.Proofs
end

section
/-! PROOFS. Every step keeps the invariant (R11 to R31, R51, R107, R206 to R208). The clauses of `Inv` that speak of the
position are the same at every position outside the bodies in which an axis's sample is in hand, a column is driven or the bus
holds colours; a step between two such positions has only the loop indices to account for. -/

namespace Sys2Proof.Proofs

open Sys2Proof.Machine Sys2Proof.Laws

variable {s t : State}

theorem get_set_self {α : Type} (p : PerAxis α) (a : Axis) (v : α) : (p.set a v).get a = v := by cases a <;> rfl

theorem get_set_of_ne {α : Type} (p : PerAxis α) {a b : Axis} (v : α) (h : b ≠ a) : (p.set a v).get b = p.get b := by
  cases a <;> cases b <;> simp_all [PerAxis.get, PerAxis.set]

@[simp] theorem npairs_pos (cfg : Config) : 0 < cfg.npairs := cfg.npairs_pos

@[simp] theorem width_pos (cfg : Config) : 0 < cfg.width := cfg.width_pos

/-! ### Positions at rest -/

/-- Between the bodies: no sample in hand, no column driven, the bus clear. -/
def atRest (p : SeqPos) : Bool :=
  match p with
  | .p1 .test | .p2 .drive | .p3 | .p4 | .p5 _ => true
  | .p6 .pulse | .p6 .clearBus => false
  | .p6 _ => true
  | _ => false

theorem mailboxOk_atRest (h : atRest s.seq = true) :
    MailboxOk s ↔ ∀ a, s.fresh.get a = true ↔ s.conv.get a = .idle := by
  have h1 : s.seq ≠ .p1 .clear := fun e => by simp [e, atRest] at h
  have h2 : s.seq ≠ .p1 .read := fun e => by simp [e, atRest] at h
  have h3 : s.seq ≠ .p1 .start := fun e => by simp [e, atRest] at h
  simp [MailboxOk, h1, h2, h3]

theorem columnsOk_atRest (h : atRest s.seq = true) : ColumnsOk s ↔ ∀ c : Fin 3, s.colDrive[c] = false := by
  have h1 : ¬ columnDriven s := by rintro (e | e | e) <;> simp [e, atRest] at h
  simp [ColumnsOk, h1]

theorem busOk_atRest (h : atRest s.seq = true) :
    BusOk s ↔ s.clk = false ∧ s.rowAddr < s.cfg.npairs ∧ s.busUpper = .black ∧ s.busLower = .black := by
  have h1 : ¬ busHeld s := by rintro (e | e) <;> simp [e, atRest] at h
  simp [BusOk, h1]

/-- A step from rest to rest that moves the position: the loop indices alone are to be shown. -/
theorem inv_moveTo {q : SeqPos} (hi : Inv s) (hs : atRest s.seq = true) (hq : atRest q = true)
    (hidx : IndicesOk { s with seq := q }) : Inv { s with seq := q } :=
  { hi with
    indices := hidx
    mailbox := (mailboxOk_atRest hq).mpr ((mailboxOk_atRest hs).mp hi.mailbox)
    columns := (columnsOk_atRest hq).mpr ((columnsOk_atRest hs).mp hi.columns)
    bus := (busOk_atRest hq).mpr ((busOk_atRest hs).mp hi.bus) }

/-! ### Phase P1 -/

/-- R94: at the start of an axis's body the indices may name either axis. -/
theorem inv_drainNext (hi : Inv s) (hs : s.seq = .p1 .test) : Inv (drainNext s) := by
  have hr : atRest s.seq = true := by rw [hs]; rfl
  have hm := (mailboxOk_atRest hr).mp hi.mailbox
  have hc := (columnsOk_atRest hr).mp hi.columns
  have hb := (busOk_atRest hr).mp hi.bus
  have hx := hi.indices
  rcases drainNext_cases s with ⟨-, e⟩ | ⟨-, e⟩ <;> rw [e]
  all_goals
    exact { hi with
      indices := by simp_all [IndicesOk, SeqPos.phase]
      mailbox := (mailboxOk_atRest rfl).mpr hm
      columns := (columnsOk_atRest rfl).mpr hc
      bus := (busOk_atRest rfl).mpr hb }

theorem inv_drainStep {d : DrainPos} (hi : Inv s) (hs : s.seq = .p1 d) : Inv (drainStep d s) := by
  have hx := hi.indices
  have hm := hi.mailbox
  have hc := hi.columns
  have hb := hi.bus
  cases d with
  | test =>
    by_cases hf : sampleFresh s.axisI s = true
    · rw [drainStep_test_fresh hf]
      exact { hi with
        indices := by simpa [IndicesOk, hs, SeqPos.phase] using hx
        mailbox := fun a => by
          have := hm a
          by_cases ha : a = s.axisI
          · subst ha; simp_all [sampleFresh]
          · simp_all
        columns := by simpa [ColumnsOk, columnDriven, hs] using hc
        bus := by simpa [BusOk, busHeld, hs] using hb }
    · rw [drainStep_test_not_fresh hf]
      exact inv_drainNext hi hs
  | clear =>
    exact { hi with
      indices := by simpa [drainStep, clearFresh, IndicesOk, hs, SeqPos.phase] using hx
      mailbox := fun a => by
        have := hm a
        by_cases ha : a = s.axisI
        · subst ha; simp_all [drainStep, clearFresh, get_set_self]
        · simp_all [drainStep, clearFresh, get_set_of_ne]
      columns := by simpa [drainStep, clearFresh, ColumnsOk, columnDriven, hs] using hc
      bus := by simpa [drainStep, clearFresh, BusOk, busHeld, hs] using hb }
  | read =>
    exact { hi with
      samples := fun a => by
        have := hi.samples a
        by_cases ha : a = s.axisI
        · subst ha; simp_all [drainStep, readSample, get_set_self]
        · simp_all [drainStep, get_set_of_ne]
      indices := by simpa [drainStep, IndicesOk, hs, SeqPos.phase] using hx
      mailbox := fun a => by simpa [drainStep, hs] using hm a
      columns := by simpa [drainStep, ColumnsOk, columnDriven, hs] using hc
      bus := by simpa [drainStep, BusOk, busHeld, hs] using hb }
  | start =>
    have ht : Inv { startConversion s.axisI s with seq := .p1 .test } :=
      { hi with
        indices := by simpa [startConversion, emit, IndicesOk, hs, SeqPos.phase] using hx
        mailbox := fun a => by
          have := hm a
          by_cases ha : a = s.axisI
          · subst ha; simp_all [get_set_self]
          · simp_all [get_set_of_ne]
        columns := by simpa [ColumnsOk, columnDriven, hs] using hc
        bus := by simpa [BusOk, busHeld, hs] using hb }
    exact inv_drainNext (s := { startConversion s.axisI s with seq := .p1 .test }) ht rfl

/-! ### Phase P2 -/

/-- R101: what each column's line is after one column is driven or released. -/
theorem colDrive_set (v : Vector Bool 3) (c d : Fin 3) (b : Bool) : (v.set c.val b)[d.val] = if d = c then b else v[d.val] := by
  rw [Vector.getElem_set]
  simp only [Fin.ext_iff, eq_comm]

theorem inv_scanStep {q : ScanPos} (hi : Inv s) (hs : s.seq = .p2 q) : Inv (scanStep q s) := by
  have hx := hi.indices
  have hm := hi.mailbox
  have hc := hi.columns
  have hb := hi.bus
  cases q with
  | drive =>
    exact { hi with
      indices := by simpa [scanStep, driveColumn, emit, IndicesOk, hs, SeqPos.phase] using hx
      mailbox := fun a => by simpa [scanStep, hs] using hm a
      columns := fun c => by
        have hcc : s.colDrive[c.val] = false := by simpa [columnDriven, hs] using hc c
        simp [scanStep, columnDriven, colDrive_set, hcc]
      bus := by simpa [scanStep, BusOk, busHeld, hs] using hb }
  | sense =>
    exact { hi with
      indices := by simp_all [scanStep, IndicesOk, SeqPos.phase]
      mailbox := fun a => by simpa [scanStep, hs] using hm a
      columns := by simpa [scanStep, ColumnsOk, columnDriven, hs] using hc
      bus := by simpa [scanStep, BusOk, busHeld, hs] using hb }
  | rows =>
    obtain ⟨hit, -, ⟨r, -, e⟩ | ⟨-, e⟩⟩ := scanRow_cases s
    all_goals simp only [scanStep, e]
    · exact { hi with
        indices := by simpa [IndicesOk, hs, SeqPos.phase] using hx }
    · exact { hi with
        indices := by simpa [IndicesOk, hs, SeqPos.phase] using hx
        mailbox := fun a => by simpa [hs] using hm a
        columns := by simpa [ColumnsOk, columnDriven, hs] using hc
        bus := by simpa [BusOk, busHeld, hs] using hb }
  | release =>
    have hcol : ∀ c : Fin 3, (s.colDrive.set s.colI false)[c] = false := fun c => by
      have hcc : s.colDrive[c.val] = decide (c = s.colI) := by simpa [columnDriven, hs] using hc c
      simp [colDrive_set, hcc]
    have hend (k : KeyReg) (hk : KeyOk { s with key := k }) : Inv (endScan k (releaseColumn s.colI s)) :=
      { hi with
        key := hk
        indices := by simp_all [endScan, IndicesOk, SeqPos.phase]
        mailbox := fun a => by simpa [endScan, hs] using hm a
        columns := (columnsOk_atRest rfl).mpr hcol
        bus := by simpa [endScan, BusOk, busHeld, hs] using hb }
    rcases scanRelease_cases s with ⟨r0, -, e⟩ | ⟨hh, c, -, e⟩ | ⟨-, -, e⟩
    all_goals simp only [scanStep, e]
    · exact hend _ (.inr ⟨_, _, rfl⟩)
    · exact { hi with
        indices := by simp_all [IndicesOk, SeqPos.phase]
        mailbox := fun a => by simpa [hs] using hm a
        columns := (columnsOk_atRest rfl).mpr hcol
        bus := by simpa [BusOk, busHeld, hs] using hb }
    · exact hend _ (.inl rfl)

/-! ### Phase P3 -/

theorem inv_enterMode (m : Mode) (hi : Inv s) : Inv (enterMode m s) := { hi with selection := .inl rfl }

theorem inv_select {n : BitVec 4} (hn : isSelection n) (hi : Inv s) : Inv (select n s) := by
  obtain ⟨hl, hr, ht⟩ := hi.accumulators
  rcases select_cases n s with e | ⟨-, -, ⟨-, e⟩ | ⟨-, e⟩ | ⟨-, e⟩⟩ <;> rw [e]
  · exact { hi with selection := .inr hn }
  · exact { hi with selection := .inr hn, accumulators := ⟨⟨.inl rfl, rfl⟩, hr, ht⟩ }
  · exact { hi with selection := .inr hn, accumulators := ⟨hl, ⟨.inl rfl, rfl⟩, ht⟩ }
  · exact { hi with selection := .inr hn, accumulators := ⟨hl, hr, .inl rfl, .inl rfl, rfl, fun _ => rfl⟩ }

theorem inv_keyEffect (hi : Inv s) : Inv (keyEffect s) := by
  unfold keyEffect pressKey
  split_ifs with hp hA h0 hB h9 hs
  · exact inv_enterMode _ hi
  · exact inv_enterMode _ hi
  · exact { inv_enterMode .draw hi with
      accumulators := ⟨⟨.inl rfl, rfl⟩, ⟨.inl rfl, rfl⟩, .inl rfl, .inl rfl, rfl, fun _ => rfl⟩ }
  · exact inv_enterMode _ hi
  · exact inv_select hs hi
  · exact hi
  · exact hi

/-! ### Phase P4 -/

/-- R11, R43: a position in bounds is not the sentinel. -/
theorem ne_unset_of_inBounds {cfg : Config} {p : Point} (h : pointInBounds cfg p) : p ≠ .unset := by
  rintro rfl
  exact absurd h.1 (by decide)

/-- R31: a new buffer in canonical form, written while the bus is clear, keeps the invariant. -/
theorem inv_withBuffer {fb : Memory} (hi : Inv s) (hs : atRest s.seq = true) (hfb : fb.wf (cellCount s.cfg) = true) :
    Inv { s with fb := fb } :=
  { hi with
    buffer := hfb
    bus := (busOk_atRest (s := { s with fb := fb }) hs).mpr ((busOk_atRest hs).mp hi.bus) }

/-- R140, R146, R147: a capture fills the first slot of the line, or completes it and leaves it empty. -/
theorem inv_captureLine (hi : Inv s) (hs : atRest s.seq = true) : Inv (captureLine s) := by
  obtain ⟨⟨h0, h1⟩, hr, ht⟩ := hi.accumulators
  rcases captureLine_cases s with ⟨-, e⟩ | ⟨-, hlast, e⟩ | ⟨-, -, e⟩ <;> rw [e]
  · exact hi
  · refine { hi with accumulators := ⟨⟨?_, hlast⟩, hr, ht⟩ }
    rcases append2_cases s.accLine s.cur with ⟨-, ea⟩ | ⟨-, -, ea⟩ | ⟨-, h1', -⟩
    · simp only [ea]; exact .inr hi.cursor.1
    · simp only [ea]; exact h0
    · exact absurd h1 h1'
  · exact { inv_withBuffer hi hs (wf_drawCells hi.buffer) with accumulators := ⟨⟨.inl rfl, rfl⟩, hr, ht⟩ }

/-- R141, R146, R147. -/
theorem inv_captureRect (hi : Inv s) (hs : atRest s.seq = true) : Inv (captureRect s) := by
  obtain ⟨hl, ⟨h0, h1⟩, ht⟩ := hi.accumulators
  rcases captureRect_cases s with ⟨-, e⟩ | ⟨-, hlast, e⟩ | ⟨-, -, e⟩ <;> rw [e]
  · exact hi
  · refine { hi with accumulators := ⟨hl, ⟨?_, hlast⟩, ht⟩ }
    rcases append2_cases s.accRect s.cur with ⟨-, ea⟩ | ⟨-, -, ea⟩ | ⟨-, h1', -⟩
    · simp only [ea]; exact .inr hi.cursor.1
    · simp only [ea]; exact h0
    · exact absurd h1 h1'
  · exact { inv_withBuffer hi hs (wf_drawCells hi.buffer) with accumulators := ⟨hl, ⟨.inl rfl, rfl⟩, ht⟩ }

/-- R142, R146, R147. -/
theorem inv_captureTri (hi : Inv s) (hs : atRest s.seq = true) : Inv (captureTri s) := by
  obtain ⟨hl, hr, h0, h1, h2, h01⟩ := hi.accumulators
  have hcur := ne_unset_of_inBounds hi.cursor.1
  rcases captureTri_cases s with ⟨-, e⟩ | ⟨-, hlast, e⟩ | ⟨-, -, e⟩ <;> rw [e]
  · exact hi
  · have hacc : slotOk s.cfg (s.accTri.append s.cur).slot0 ∧ slotOk s.cfg (s.accTri.append s.cur).slot1 ∧
        ((s.accTri.append s.cur).slot0 = .unset → (s.accTri.append s.cur).slot1 = .unset) := by
      rcases append3_cases s.accTri s.cur with ⟨-, ea⟩ | ⟨h0', -, ea⟩ | ⟨-, -, -, ea⟩ | ⟨-, -, h2', -⟩
      · simp only [ea]; exact ⟨.inr hi.cursor.1, h1, fun h => absurd h hcur⟩
      · simp only [ea]; exact ⟨h0, .inr hi.cursor.1, fun h => absurd h h0'⟩
      · simp only [ea]; exact ⟨h0, h1, h01⟩
      · exact absurd h2 h2'
    obtain ⟨k0, k1, k01⟩ := hacc
    exact { hi with accumulators := ⟨hl, hr, k0, k1, hlast, k01⟩ }
  · exact { inv_withBuffer hi hs (wf_drawCells hi.buffer) with
      accumulators := ⟨hl, hr, .inl rfl, .inl rfl, rfl, fun _ => rfl⟩ }

theorem inv_drawTool (n : BitVec 4) (hi : Inv s) (hs : atRest s.seq = true) : Inv (drawTool n s) := by
  unfold drawTool
  split
  · exact inv_captureLine hi hs
  · exact inv_captureRect hi hs
  · exact inv_captureTri hi hs
  · exact inv_withBuffer hi hs wf_paint
  · exact inv_withBuffer hi hs wf_paint
  · exact inv_withBuffer hi hs wf_fill
  · exact hi

theorem inv_modeEffect (hi : Inv s) (hs : atRest s.seq = true) : Inv (modeEffect s) := by
  cases hm : s.mode with
  | color =>
    rw [modeEffect_color_frame hm]
    exact { hi with }
  | fill =>
    rw [modeEffect_fill hm]
    split_ifs
    · exact { inv_withBuffer hi hs wf_fill with selection := .inl rfl }
    · exact hi
  | draw =>
    rw [modeEffect_draw hm]
    exact inv_drawTool s.sel hi hs
  | speed =>
    rw [modeEffect_speed hm]
    split_ifs
    · obtain ⟨h1, h8⟩ := s.cfg.speedDiv_range (selIndex s.sel)
      obtain ⟨-, -, hcnt⟩ := hi.timer
      exact { hi with timer := ⟨h1, h8, hcnt⟩ }
    · exact hi

/-! ### Phase P5 -/

/-- R11, R162: the new position is in bounds. -/
theorem moveCursor_inBounds (h : pointInBounds s.cfg s.cur) : pointInBounds s.cfg (moveCursor s).cur := by
  obtain ⟨hx0, hx, hy0, hy⟩ := h
  obtain ⟨kx0, kx⟩ := moveAxis_range (joy := s.joy.x) (neutral := s.cfg.neutralX) (threshold := s.cfg.threshold) hx0 hx
  obtain ⟨ky0, ky⟩ := moveAxis_range (joy := s.joy.y) (neutral := s.cfg.neutralY) (threshold := s.cfg.threshold) hy0 hy
  exact ⟨kx0, kx, ky0, ky⟩

/-- R161 to R163: the steps T1 to T3 keep the invariant. -/
theorem inv_afterTrace (hi : Inv s) (hs : atRest s.seq = true) : Inv (afterTrace s) := by
  have hmove : Inv (moveCursor (recordPrevious s)) :=
    { hi with cursor := ⟨moveCursor_inBounds (s := recordPrevious s) hi.cursor.1, hi.cursor.1⟩ }
  unfold afterTrace traceDraw
  split_ifs
  · exact inv_withBuffer hmove hs (wf_draw hmove.buffer)
  · exact hmove

theorem afterTrace_cfg (s : State) : (afterTrace s).cfg = s.cfg := by unfold afterTrace; rw [traceDraw_eq]; rfl

theorem afterTrace_seq (s : State) : (afterTrace s).seq = s.seq := by unfold afterTrace; rw [traceDraw_eq]; rfl

/-- R160: a tick keeps the invariant. -/
theorem inv_tick (hi : Inv s) (hs : atRest s.seq = true) (h : tick s = some t) : Inv t := by
  have hu := inv_afterTrace hi hs
  have hus : atRest (afterTrace s).seq = true := by rw [afterTrace_seq]; exact hs
  have hcfg := afterTrace_cfg s
  rcases tick_cases h with ⟨-, hb, -, e⟩ | ⟨-, hne, e⟩ | ⟨-, -, hb, e⟩ <;> rw [e]
  · exact { inv_withBuffer hu hus (wf_write hu.buffer (by rw [hcfg]; exact cellNumber_lt hb)) with }
  · have hlt : s.blinkCnt < s.cfg.blinkThreshold := hi.blink
    exact { hu with blink := show s.blinkCnt + 1 < (afterTrace s).cfg.blinkThreshold by rw [hcfg]; omega }
  · exact { inv_withBuffer hu hus (wf_write hu.buffer (by rw [hcfg]; exact cellNumber_lt hb)) with
      blink := (afterTrace s).cfg.blink_pos }

theorem inv_gateStep {g : GatePos} (hi : Inv s) (hs : s.seq = .p5 g) (h : gateStep g s = .next t) : Inv t := by
  have hr : atRest s.seq = true := by rw [hs]; rfl
  have hx := hi.indices
  rcases gateStep_eq_next h with ⟨-, -, rfl⟩ | ⟨-, -, rfl⟩ | ⟨-, rfl⟩ | ⟨rfl, u, hu, rfl⟩
  · exact inv_moveTo hi hr rfl (by simpa [IndicesOk, hs, SeqPos.phase] using hx)
  · exact inv_moveTo hi hr rfl (by simp_all [IndicesOk, SeqPos.phase])
  · exact inv_moveTo (s := { s with movementDue := false }) { hi with } hr rfl
      (by simpa [IndicesOk, hs, SeqPos.phase] using hx)
  · have hseq : u.seq = s.seq := by rw [tick_frame hu]
    have hv := inv_tick hi hr hu
    have hx' := hv.indices
    exact inv_moveTo hv (hseq ▸ hr) rfl (by simp_all [IndicesOk, SeqPos.phase])

/-! ### Phase P6 -/

theorem inv_refreshStep {r : PassPos} (hi : Inv s) (hs : s.seq = .p6 r) (h : refreshStep r s = .next t) : Inv t := by
  have hx := hi.indices
  have hm := hi.mailbox
  have hc := hi.columns
  obtain ⟨hclk, hrow, -, hheld⟩ := hi.bus
  cases r with
  | outputOff =>
    obtain rfl := Host.Outcome.next.inj h
    exact inv_moveTo (s := setOutputEnable false s) { hi with } (by simp [hs, atRest]) rfl
      (by simpa [IndicesOk, hs, SeqPos.phase] using hx)
  | latchOff =>
    obtain rfl := Host.Outcome.next.inj h
    exact inv_moveTo (s := setLatch false s) { hi with } (by simp [hs, atRest]) rfl
      (by simp_all [IndicesOk, SeqPos.phase])
  | setBus =>
    obtain ⟨-, -, rfl⟩ := presentColumn_eq_next.mp h
    exact { hi with
      indices := by simpa [IndicesOk, hs, SeqPos.phase] using hx
      mailbox := fun a => by simpa [hs] using hm a
      columns := by simpa [ColumnsOk, columnDriven, hs] using hc
      bus := ⟨hclk, hrow, fun hne => absurd (.inl rfl) hne, fun _ => ⟨rfl, rfl⟩⟩ }
  | pulse =>
    obtain rfl := Host.Outcome.next.inj h
    exact { hi with
      indices := by simpa [IndicesOk, hs, SeqPos.phase] using hx
      mailbox := fun a => by simpa [hs] using hm a
      columns := by simpa [ColumnsOk, columnDriven, hs] using hc
      bus := ⟨rfl, hrow, fun hne => absurd (.inr rfl) hne, fun _ => hheld (.inl hs)⟩ }
  | clearBus =>
    obtain rfl := Host.Outcome.next.inj h
    have hm' : ∀ a, s.fresh.get a = true ↔ s.conv.get a = .idle := fun a => by simpa [hs] using hm a
    have hc' : ∀ c : Fin 3, s.colDrive[c] = false := by simpa [ColumnsOk, columnDriven, hs] using hc
    rcases clearColumn_cases s with ⟨hlt, e⟩ | ⟨-, e⟩ <;> rw [e]
    all_goals
      exact { hi with
        indices := by simp_all [IndicesOk, SeqPos.phase]
        mailbox := (mailboxOk_atRest rfl).mpr hm'
        columns := (columnsOk_atRest rfl).mpr hc'
        bus := (busOk_atRest rfl).mpr ⟨hclk, hrow, rfl, rfl⟩ }
  | latchOn =>
    obtain rfl := Host.Outcome.next.inj h
    exact inv_moveTo (s := setLatch true s) { hi with } (by simp [hs, atRest]) rfl
      (by simpa [IndicesOk, hs, SeqPos.phase] using hx)
  | outputAfter =>
    obtain rfl := Host.Outcome.next.inj h
    exact inv_moveTo (s := setOutputEnable s.cfg.oeAfterLatch s) { hi with } (by simp [hs, atRest]) rfl
      (by simpa [IndicesOk, hs, SeqPos.phase] using hx)
  | address =>
    obtain rfl := Host.Outcome.next.inj h
    have hr : atRest s.seq = true := by rw [hs]; rfl
    have haddr := addrAfter_lt (p := s.pairI) (cfg := s.cfg) (by simp_all [IndicesOk])
    obtain ⟨-, -, hup, hlow⟩ := (busOk_atRest hr).mp hi.bus
    rcases addressPair_cases s with ⟨hlt, e⟩ | ⟨-, e⟩ <;> rw [e]
    all_goals
      exact { hi with
        indices := by simp_all [IndicesOk, SeqPos.phase]
        mailbox := (mailboxOk_atRest rfl).mpr ((mailboxOk_atRest hr).mp hm)
        columns := (columnsOk_atRest rfl).mpr ((columnsOk_atRest hr).mp hc)
        bus := (busOk_atRest rfl).mpr ⟨hclk, haddr, hup, hlow⟩ }

/-! ### The agents and the inputs -/

theorem inv_completeConversion (a : Axis) (hi : Inv s) : Inv (completeConversion a s) := by
  rcases completeConversion_cases a s with ⟨hbusy, e⟩ | ⟨-, e⟩ <;> rw [e]
  · exact { hi with
      samples := fun b => by
        have := hi.samples b
        have := hi.samples a
        by_cases hb : b = a
        · subst hb; simp_all [get_set_self]
        · simp_all [get_set_of_ne]
      mailbox := fun b => by
        have := hi.mailbox b
        by_cases hb : b = a
        · subst hb
          have h1 : ¬ (b = s.axisI ∧ s.seq = .p1 .clear) := fun h => by rw [if_pos h] at this; simp_all
          have h2 : ¬ (b = s.axisI ∧ (s.seq = .p1 .read ∨ s.seq = .p1 .start)) := fun h => by
            rw [if_neg h1, if_pos h] at this; simp_all
          simp [h1, h2, get_set_self]
        · simpa [get_set_of_ne, hb] using this }
  · exact hi

theorem inv_timerFire (hi : Inv s) : Inv (timerFire s) := by
  obtain ⟨h1, h8, h7⟩ := hi.timer
  rcases timerFire_cases s with ⟨-, e⟩ | ⟨hlt, e⟩ <;> rw [e]
  · exact { hi with timer := ⟨h1, h8, Nat.zero_le 7⟩ }
  · exact { hi with timer := ⟨h1, h8, by simp only; omega⟩ }

theorem inv_envStep (e : EnvMove) (hi : Inv s) : Inv (envStep e s) := by
  cases e with
  | complete a => exact inv_completeConversion a hi
  | baseTick => exact inv_timerFire hi
  | setAdc a raw =>
    have hport : adcPort s.cfg raw < 2 ^ s.cfg.sampleBits := Nat.mod_lt _ (Nat.two_pow_pos _)
    exact { hi with
      samples := fun b => by
        have := hi.samples b
        by_cases hb : b = a
        · subst hb; simp_all [envStep, get_set_self]
        · simp_all [envStep, get_set_of_ne] }
  | setButton b => exact { hi with }
  | setKeys ks => exact { hi with }

/-! ### The whole step -/

theorem inv_mainStep (hi : Inv s) (h : mainStep s = .next t) : Inv t := by
  have hx := hi.indices
  rcases mainStep_cases h with ⟨d, hs, rfl⟩ | ⟨q, hs, rfl⟩ | ⟨hs, rfl⟩ | ⟨hs, rfl⟩ | ⟨g, hs, hg⟩ | ⟨r, hs, hr⟩
  · exact inv_drainStep hi hs
  · exact inv_scanStep hi hs
  · have hr : atRest s.seq = true := by rw [hs]; rfl
    have hk := inv_keyEffect hi
    have hseq : (keyEffect s).seq = s.seq := by rw [keyEffect_frame]
    have hx := hk.indices
    exact inv_moveTo hk (hseq ▸ hr) rfl (by simp_all [IndicesOk, SeqPos.phase])
  · have hr : atRest s.seq = true := by rw [hs]; rfl
    have hk := inv_modeEffect hi hr
    have hseq := modeEffect_seq s
    have hx := hk.indices
    exact inv_moveTo (s := consumeButton (modeEffect s)) { hk with } (hseq ▸ hr) rfl
      (by simp_all [IndicesOk, SeqPos.phase])
  · exact inv_gateStep hi hs hg
  · exact inv_refreshStep hi hs hr

/-- Settles O57: by who steps, and for the main sequencer by its phase. -/
theorem everyStepKeepsTheInvariant : Obligations.EveryStepKeepsTheInvariant := by
  intro s t hi h
  obtain ⟨u, ms, rfl, ⟨-, h⟩ | ⟨-, e, rfl⟩⟩ := step_cases h
  · exact inv_mainStep (s := u) { hi with } h
  · exact inv_envStep e (s := u) { hi with }

end Sys2Proof.Proofs
end

section
/-! PROOFS. The memory operations on the frame buffer: `fill` writes every cell and `draw` at most one, each nothing but the
buffer (20_memory.md R44, R46). -/

namespace Sys2Proof.Proofs

open Sys2Proof.Machine Sys2Proof.Laws

variable {s : State} {x y : Int} {c : Color}

/-! ### `fill` -/

/-- R43: natural coordinates below the bounds name a cell in bounds. -/
theorem inBounds_natCast {cfg : Config} {x y : Nat} (hx : x < cfg.width) (hy : y < cfg.height) : inBounds cfg x y := by
  unfold inBounds; omega

/-- R46: every cell of a filled buffer holds the colour. -/
theorem fill_holdsEverywhere (c : Color) (s : State) : holdsEverywhere s.cfg (fun _ _ => c) (fill c s).fb :=
  ⟨wf_fill, fun _ _ hx hy => read_fill (inBounds_natCast hx hy)⟩

/-- R46: a fill depends on the buffer before it in no cell, so the last of two fills wins. -/
theorem fill_fill (c d : Color) (s : State) : fill c (fill d s) = fill c s := by
  simp only [fill]

/-- Settles O21. -/
theorem fillIsIdempotent : Obligations.FillIsIdempotent := fun c s =>
  ⟨rfl, fill_holdsEverywhere c s, fill_fill c c s⟩

/-! ### `draw` -/

theorem draw_of_inBounds (hb : inBounds s.cfg x y) :
    draw x y c s = { s with fb := s.fb.write (cellNumber s.cfg x y) c } := by
  simp only [draw, drawCell, if_pos hb]

theorem draw_of_not_inBounds (hb : ¬ inBounds s.cfg x y) : draw x y c s = s := by
  simp only [draw, drawCell, if_neg hb]

/-- Settles O28: in bounds by what a write leaves in the written cell and in the others. -/
theorem drawIsBoundsChecked : Obligations.DrawIsBoundsChecked := fun _ _ _ _ hwf =>
  ⟨fun hb => ⟨_, draw_of_inBounds hb, wf_write hwf (cellNumber_lt hb), read_write_self hwf, fun _ ha => read_write_other ha⟩,
    draw_of_not_inBounds⟩

end Sys2Proof.Proofs
end

section
/-! PROOFS. The two word formats: the decoder and the encoder are inverse to each other, a word of the tables is the encoding
of its instruction, and a mode word that selects nothing has no effect of its own (30_encoding.md R60 to R69). -/

namespace Sys2Proof.Proofs

open Sys2Proof.Machine Sys2Proof.Laws

/-! ### The fields of a word -/

/-- R61: a key word is its two fields, joined. -/
theorem makeKeyWord_fields (w : KeyWord) : makeKeyWord w.pressed w.v = w := by revert w; decide

/-- R65: a mode word is its two fields, joined. -/
theorem makeModeWord_fields (w : ModeWord) : makeModeWord w.modeBits w.selBits = w := by revert w; decide

/-- R61, R64: a key word that is not pressed is `NOKEY`. -/
theorem decode_notPressed (v : BitVec 4) : decode (.k5 (makeKeyWord false v)) = .nokey v := by
  simp only [decode, decodeKeyWord, makeKeyWord_pressed, makeKeyWord_v, Bool.false_eq_true, if_false]

/-- R61, R64: a key word that is pressed is decoded by its nibble. -/
theorem decode_pressed (v : BitVec 4) : decode (.k5 (makeKeyWord true v)) = decodePressed v := by
  simp only [decode, decodeKeyWord, makeKeyWord_pressed, makeKeyWord_v, if_true]

/-! ### Encoding, then decoding -/

/-- R68: the twelve assigned values are all below the reserved ones. -/
theorem decodePressed_of_reserved {v : BitVec 4} (h : 0xC#4 ≤ v) : decodePressed v = .k5Reserved v := by
  unfold decodePressed
  split
  case h_13 => rfl
  all_goals exact absurd h (by decide)

/-- Settles O3: the two instructions with an operand by the fields of their word, each other one by its row of the tables. -/
theorem decodeOfEncode : Obligations.DecodeOfEncode := by
  intro i hi
  cases i with
  | nokey v => exact decode_notPressed v
  | k5Reserved v => exact (decode_pressed v).trans (decodePressed_of_reserved (of_decide_eq_true hi))
  | _ => rfl

/-! ### Decoding, then encoding -/

/-- The instruction is well-formed and the word is its code. -/
abbrev isCodeOf (w : CodeWord) (i : Instr) : Prop := i.wf = true ∧ encode i = w

/-- R62, R68: a pressed word is reserved or one of the twelve assigned rows. -/
theorem isCodeOf_decodePressed (v : BitVec 4) : isCodeOf (.k5 (makeKeyWord true v)) (decodePressed v) := by
  by_cases h : 0xC#4 ≤ v
  · rw [decodePressed_of_reserved h]
    exact ⟨decide_eq_true h, rfl⟩
  · revert v; decide

/-- R16, R65: the decoder of the mode words, mode by mode. -/
theorem decode_makeModeWord (m : Mode) (n : BitVec 4) : decode (.m6 (makeModeWord m.bits n)) =
    match m with
    | .color => decodeColorSel n
    | .fill => decodeFillSel n
    | .draw => decodeDrawSel n
    | .speed => decodeSpeedSel n := by
  simp only [decode, decodeModeWord, makeModeWord_modeBits, makeModeWord_selBits]
  cases m <;> rfl

/-- R16: every two bits are a mode's. -/
theorem bits_ofBits (b : BitVec 2) : (Mode.ofBits b).bits = b := by revert b; decide

/-- R65: every mode word is the word of a mode and a nibble. -/
theorem exists_makeModeWord (w : ModeWord) : ∃ (m : Mode) (n : BitVec 4), w = makeModeWord m.bits n :=
  ⟨.ofBits w.modeBits, w.selBits, by rw [bits_ofBits, makeModeWord_fields]⟩

/-- R66, R69: the sixteen rows of each mode. -/
theorem isCodeOf_decode_makeModeWord (m : Mode) (n : BitVec 4) :
    isCodeOf (.m6 (makeModeWord m.bits n)) (decode (.m6 (makeModeWord m.bits n))) := by
  rw [decode_makeModeWord]
  cases m
  all_goals revert n; decide

/-- Settles O4, by the fields of the word: a key word by `pressed`, a mode word by its mode. -/
theorem encodeOfDecode : Obligations.EncodeOfDecode := by
  intro w
  change isCodeOf w (decode w)
  cases w with
  | k5 w =>
    rw [← makeKeyWord_fields w]
    cases KeyWord.pressed w with
    | false => rw [decode_notPressed]; exact ⟨rfl, rfl⟩
    | true => rw [decode_pressed]; exact isCodeOf_decodePressed _
  | m6 w =>
    obtain ⟨m, n, rfl⟩ := exists_makeModeWord w
    exact isCodeOf_decode_makeModeWord m n

/-! ### Words of the tables -/

/-- Settles O1: the register by the key table, the instruction by O3, as the row's word is its code. -/
theorem keyCodeMap : Obligations.KeyCodeMap := by
  refine ⟨fun r c idx ch v w i h => ?_, rfl, rfl, decode_notPressed 0#4⟩
  have hcode : keyFound r c = ⟨true, v, some ⟨r, c, idx, ch⟩⟩ ∧ makeKeyWord true v = w ∧ i.wf = true ∧ encode i = .k5 w := by
    simp only [List.mem_cons, List.not_mem_nil, or_false, Prod.mk.injEq] at h
    rcases h with h | h | h | h | h | h | h | h | h | h | h | h
    all_goals
      obtain ⟨rfl, rfl, rfl, rfl, rfl, rfl, rfl⟩ := h
      exact ⟨rfl, rfl, rfl, rfl⟩
  obtain ⟨hkey, hword, hwf, henc⟩ := hcode
  exact ⟨hkey, hword, henc ▸ decodeOfEncode i hwf⟩

/-- Settles O2: each word is the code of its instruction, so O3 decodes it. -/
theorem tableWordsDecode : Obligations.TableWordsDecode :=
  ⟨decodeOfEncode .modeColor rfl, decodeOfEncode .sel8 rfl, decodeOfEncode (.nokey 0#4) rfl,
    decodeOfEncode (.k5Reserved 0xE#4) rfl,
    decodeOfEncode .colorSet3 rfl, decodeOfEncode .colorNone rfl, decodeOfEncode .colorUnreachable0 rfl,
    decodeOfEncode .fillDo8 rfl, decodeOfEncode .fillNone rfl, decodeOfEncode .fillUnreachable9 rfl,
    decodeOfEncode .drawLine rfl, decodeOfEncode .drawPat7 rfl, decodeOfEncode .drawFill rfl,
    decodeOfEncode .drawUnreachableE rfl, decodeOfEncode .drawNone rfl,
    decodeOfEncode .speedSet1 rfl, decodeOfEncode .speedNone rfl, decodeOfEncode .speedUnreachableC rfl⟩

/-! ### Mode words that select nothing -/

/-- R137: Draw mode has no tool outside the selections. -/
theorem drawTool_of_not_isSelection {n : BitVec 4} (h : ¬ isSelection n) (s : State) : drawTool n s = s := by
  unfold drawTool
  split
  case h_7 => rfl
  all_goals exact absurd (by decide) h

/-- R69, R132, R134, R136, R137: a mode word without a selection acts as the `NONE` word of its mode; R148: it consumes the
button flag. -/
theorem exec_of_not_isSelection {n : BitVec 4} (h : ¬ isSelection n) (m : Mode) (s : State) :
    exec (decode (.m6 (makeModeWord m.bits n))) s = .next (consumeButton s) := by
  rw [decode_makeModeWord]
  cases m with
  | color => simp only [exec_decodeColorSel, if_neg h]
  | fill => simp only [exec_decodeFillSel, if_neg h]
  | draw => simp only [exec_decodeDrawSel, drawTool_of_not_isSelection h]
  | speed => simp only [exec_decodeSpeedSel, if_neg h]

/-- R67: a mode word whose nibble is no selection. -/
def selectsNothing : CodeWord → Bool
  | .k5 _ => false
  | .m6 w => !decide (isSelection w.selBits)

/-- R69: what selects nothing in its code consumes the button flag, and does no more. -/
theorem exec_of_selectsNothing {i : Instr} (hwf : i.wf = true) (h : selectsNothing (encode i) = true) (s : State) :
    exec i s = .next (consumeButton s) := by
  rw [← decodeOfEncode i hwf]
  cases hw : encode i with
  | k5 w => simp [hw, selectsNothing] at h
  | m6 w =>
    obtain ⟨m, n, rfl⟩ := exists_makeModeWord w
    rw [hw, selectsNothing, makeModeWord_selBits, Bool.not_eq_true', decide_eq_false_iff_not] at h
    exact exec_of_not_isSelection h m s

/-- Settles O19: each of the 28 instructions is coded by a mode word that selects nothing. -/
theorem unreachableWordsConsumeTheButton : Obligations.UnreachableWordsConsumeTheButton := by
  intro i hi
  obtain ⟨hwf, hnone⟩ : i.wf = true ∧ selectsNothing (encode i) = true := by revert i; decide
  exact exec_of_selectsNothing hwf hnone

end Sys2Proof.Proofs
end

section
/-! PROOFS. The main sequencer from phase to phase: the instruction P3 and P4 run, the movement gate, the order of the phases,
and that an iteration ends with one whole refresh pass under every schedule (40_main_sequencer.md R80 to R88). -/

namespace Sys2Proof.Proofs

open Sys2Proof.Machine Sys2Proof.Laws

variable {s t : State}

/-! ### One step of P3, P4, P5 and P6 -/

/-- Settles O5: P3 and P4 run what they decode. -/
theorem stepRunsDecodedInstruction : Obligations.StepRunsDecodedInstruction := by
  intro s i hm _
  rw [step_main hm]
  constructor
  · rintro hs rfl
    exact mainStep_p3 (s := { s with moves := s.moves.tail }) hs
  · rintro hs rfl
    exact mainStep_p4 (s := { s with moves := s.moves.tail }) hs

/-- Settles O43, by the position in the gate and, where it is read, the flag. -/
theorem movementGate : Obligations.MovementGate := by
  intro s hm
  rw [step_main hm]
  refine ⟨fun hs hd => ?_, fun hs hd => ?_, fun hs => ?_⟩
  all_goals rw [mainStep_p5 (s := { s with moves := s.moves.tail }) hs]
  · simp [gateStep, readMovementDue, hd]
  · simp [gateStep, readMovementDue, hd]
  · rfl

theorem phase_eq_p6 {p : SeqPos} : p.phase = .p6 ↔ ∃ r, p = .p6 r := by cases p <;> simp [SeqPos.phase]

/-- Settles O49: the frame of P6. -/
theorem refreshWritesOnlyPorts : Obligations.RefreshWritesOnlyPorts := by
  intro s t hm hp h
  obtain ⟨r, hs⟩ := phase_eq_p6.mp hp
  rw [step_main hm, mainStep_p6 (s := { s with moves := s.moves.tail }) hs] at h
  exact refreshStep_frame h

/-! ### The position after a step of the main sequencer -/

/-- R80: the position at which a phase begins. -/
def phaseStart : Phase → SeqPos
  | .p1 => .p1 .test
  | .p2 => .p2 .drive
  | .p3 => .p3
  | .p4 => .p4
  | .p5 => .p5 .test
  | .p6 => .p6 .outputOff

theorem phaseStart_phase (p : Phase) : (phaseStart p).phase = p := by cases p <;> rfl

/-- R94: the longest body of P1 for one axis, from a position in it. -/
def drainAhead : DrainPos → Nat
  | .test => 4
  | .clear => 3
  | .read => 2
  | .start => 1

/-- R100: the longest rest of the sweep of one column, from a position in it and the index of the row loop. -/
def scanAhead (row : Fin 4) : ScanPos → Nat
  | .drive => 7
  | .sense => 6
  | .rows => 5 - row.val
  | .release => 1

/-- R86: the longest rest of the movement gate. -/
def gateAhead : GatePos → Nat
  | .test => 3
  | .clear => 2
  | .tick => 1

/-- R88: how many steps of the main sequencer lead at most to the next refresh pass; 0 inside a pass. -/
def stepsToPass (s : State) : Nat :=
  match s.seq with
  | .p1 d => drainAhead d + (match s.axisI with | .x => 4 | .y => 0) + 26
  | .p2 q => scanAhead s.rowI q + 7 * (2 - s.colI.val) + 5
  | .p3 => 5
  | .p4 => 4
  | .p5 g => gateAhead g
  | .p6 _ => 0

/-- What every step of the main sequencer from `s` to `t` does: it stays in its phase or begins the next one, it comes nearer
to the pass, it adds to the trace at most, and it leaves the schedule. -/
structure Advances (s t : State) : Prop where
  position : t.seq.phase = s.seq.phase ∨ t.seq = phaseStart s.seq.phase.after
  nearer : s.seq.phase ≠ .p6 → stepsToPass t < stepsToPass s
  trace : s.trace <:+ t.trace
  moves : t.moves = s.moves

/-- R94: the end of an axis's body. -/
theorem drainNext_advances {d : DrainPos} (hs : s.seq = .p1 d) : Advances s (drainNext s) := by
  rcases drainNext_cases s with ⟨hx, e⟩ | ⟨hy, e⟩ <;> rw [e]
  · refine ⟨.inl (by rw [hs]; rfl), fun _ => ?_, List.suffix_rfl, rfl⟩
    cases d <;> simp [stepsToPass, hs, hx, drainAhead]
  · refine ⟨.inr (by rw [hs]; rfl), fun _ => ?_, List.suffix_rfl, rfl⟩
    cases d <;> simp [stepsToPass, hs, hy, drainAhead, scanAhead] <;> omega

theorem drainStep_advances {d : DrainPos} (hs : s.seq = .p1 d) : Advances s (drainStep d s) := by
  cases d with
  | test =>
    by_cases hf : sampleFresh s.axisI s = true
    · rw [drainStep_test_fresh hf]
      exact ⟨.inl (by rw [hs]; rfl), fun _ => by simp [stepsToPass, hs, drainAhead], List.suffix_rfl, rfl⟩
    · rw [drainStep_test_not_fresh hf]
      exact drainNext_advances hs
  | clear =>
    exact ⟨.inl (by rw [hs]; rfl), fun _ => by simp [drainStep, clearFresh, stepsToPass, hs, drainAhead], List.suffix_rfl, rfl⟩
  | read =>
    exact ⟨.inl (by rw [hs]; rfl), fun _ => by simp [drainStep, stepsToPass, hs, drainAhead], List.suffix_rfl, rfl⟩
  | start =>
    have hn : Advances (startConversion s.axisI s) (drainStep .start s) := drainNext_advances hs
    exact { hn with trace := (List.suffix_cons _ _).trans hn.trace }

/-- R100: the sweep of a column goes on to the next one or ends in P3. -/
theorem scanRelease_advances (hs : s.seq = .p2 .release) : Advances s (scanRelease s) := by
  have hend (k : KeyReg) : Advances s (endScan k (releaseColumn s.colI s)) :=
    ⟨.inr (by rw [hs]; rfl), fun _ => by simp [stepsToPass, hs, endScan, scanAhead], List.suffix_cons _ _, rfl⟩
  rcases scanRelease_cases s with ⟨r0, -, e⟩ | ⟨-, c, hc, e⟩ | ⟨-, -, e⟩ <;> rw [e]
  · exact hend _
  · have hcol := nextCol_eq_some.mp hc
    refine ⟨.inl (by rw [hs]; rfl), fun _ => ?_, List.suffix_cons _ _, rfl⟩
    simp only [stepsToPass, hs, scanAhead]
    omega
  · exact hend _

theorem scanStep_advances {q : ScanPos} (hs : s.seq = .p2 q) : Advances s (scanStep q s) := by
  cases q with
  | drive =>
    exact ⟨.inl (by rw [hs]; rfl), fun _ => by simp [scanStep, stepsToPass, hs, scanAhead], List.suffix_cons _ _, rfl⟩
  | sense =>
    exact ⟨.inl (by rw [hs]; rfl), fun _ => by simp [scanStep, stepsToPass, hs, scanAhead], List.suffix_cons _ _, rfl⟩
  | rows =>
    obtain ⟨hit, -, ⟨r, hr, e⟩ | ⟨-, e⟩⟩ := scanRow_cases s
    all_goals simp only [scanStep, e]
    · have hrow := nextRow_eq_some.mp hr
      refine ⟨.inl rfl, fun _ => ?_, List.suffix_rfl, rfl⟩
      simp only [stepsToPass, hs, scanAhead]
      omega
    · refine ⟨.inl (by rw [hs]; rfl), fun _ => ?_, List.suffix_rfl, rfl⟩
      simp only [stepsToPass, hs, scanAhead]
      omega
  | release => exact scanRelease_advances hs

/-- R84: P3 is one step. -/
theorem keyEffect_advances (hs : s.seq = .p3) : Advances s { keyEffect s with seq := .p4 } := by
  rw [keyEffect_frame]
  exact ⟨.inr (by rw [hs]; rfl), fun _ => by simp [stepsToPass, hs], List.suffix_rfl, rfl⟩

/-- R130: whatever the mode, P4's operation writes `sel`, `draw_color`, the accumulators, `timer_div` and the frame buffer at
most. -/
theorem modeEffect_frame (s : State) : modeEffect s = { s with
    sel := (modeEffect s).sel, drawColor := (modeEffect s).drawColor, accLine := (modeEffect s).accLine,
    accRect := (modeEffect s).accRect, accTri := (modeEffect s).accTri, timerDiv := (modeEffect s).timerDiv,
    fb := (modeEffect s).fb } := by
  have hmode : s.mode = .color ∨ s.mode = .fill ∨ s.mode = .draw ∨ s.mode = .speed := by cases s.mode <;> simp
  rcases hmode with hm | hm | hm | hm
  · rw [modeEffect_color_frame hm]
  · rw [modeEffect_fill_frame hm]
  · rw [modeEffect_draw_frame hm]
  · rw [modeEffect_speed_frame hm]

/-- R85: P4 is one step. -/
theorem modeEffect_advances (hs : s.seq = .p4) :
    Advances s { modeEffect s with btnFlag := false, seq := .p5 .test } := by
  rw [modeEffect_frame]
  exact ⟨.inr (by rw [hs]; rfl), fun _ => by simp [stepsToPass, hs, gateAhead], List.suffix_rfl, rfl⟩

/-- R166: a tick adds to the trace at most the button's sample. -/
theorem tick_trace (h : tick s = some t) : s.trace <:+ t.trace := by
  have hu : (afterTrace s).trace = s.trace := by unfold afterTrace; rw [traceDraw_eq]; rfl
  rcases tick_cases h with ⟨-, -, -, rfl⟩ | ⟨-, -, rfl⟩ | ⟨-, -, -, rfl⟩
  · exact hu ▸ List.suffix_rfl
  · exact hu ▸ List.suffix_rfl
  · exact List.suffix_cons _ _

theorem gateStep_advances {g : GatePos} (hs : s.seq = .p5 g) (h : gateStep g s = .next t) : Advances s t := by
  rcases gateStep_eq_next h with ⟨rfl, -, rfl⟩ | ⟨rfl, -, rfl⟩ | ⟨rfl, rfl⟩ | ⟨rfl, u, hu, rfl⟩
  · exact ⟨.inl (by rw [hs]; rfl), fun _ => by simp [stepsToPass, hs, gateAhead], List.suffix_rfl, rfl⟩
  · exact ⟨.inr (by rw [hs]; rfl), fun _ => by simp [stepsToPass, hs, gateAhead], List.suffix_rfl, rfl⟩
  · exact ⟨.inl (by rw [hs]; rfl), fun _ => by simp [stepsToPass, hs, gateAhead], List.suffix_rfl, rfl⟩
  · refine ⟨.inr (by rw [hs]; rfl), fun _ => by simp [stepsToPass, hs, gateAhead], tick_trace (t := u) hu, ?_⟩
    rw [tick_frame hu]

/-- R200: each position of the pass adds one event to the trace. -/
theorem refreshStep_advances {r : PassPos} (hs : s.seq = .p6 r) (h : refreshStep r s = .next t) : Advances s t := by
  have hp : s.seq.phase = .p6 := by rw [hs]; rfl
  have of_event {e : Event} (hseq : t.seq.phase = .p6 ∨ t.seq = .p1 .test) (htr : t.trace = e :: s.trace) : Advances s t :=
    ⟨by rw [hp]; exact hseq, fun hne => absurd hp hne, htr ▸ List.suffix_cons _ _, by rw [refreshStep_frame h]⟩
  cases r with
  | setBus =>
    obtain ⟨-, -, rfl⟩ := presentColumn_eq_next.mp h
    exact of_event (.inl rfl) rfl
  | clearBus =>
    obtain rfl := Host.Outcome.next.inj h
    rcases clearColumn_cases s with ⟨-, e⟩ | ⟨-, e⟩ <;> exact of_event (.inl (by rw [e]; rfl)) (by rw [e]; rfl)
  | address =>
    obtain rfl := Host.Outcome.next.inj h
    rcases addressPair_cases s with ⟨-, e⟩ | ⟨-, e⟩
    · exact of_event (.inl (by rw [e]; rfl)) (by rw [e]; rfl)
    · exact of_event (.inr (by rw [e])) (by rw [e]; rfl)
  | outputOff | latchOff | pulse | latchOn | outputAfter =>
    obtain rfl := Host.Outcome.next.inj h
    exact of_event (.inl rfl) rfl

/-- R81: by the phase that steps. -/
theorem mainStep_advances (h : mainStep s = .next t) : Advances s t := by
  rcases mainStep_cases h with ⟨d, hs, rfl⟩ | ⟨q, hs, rfl⟩ | ⟨hs, rfl⟩ | ⟨hs, rfl⟩ | ⟨g, hs, hg⟩ | ⟨r, hs, hr⟩
  · exact drainStep_advances hs
  · exact scanStep_advances hs
  · exact keyEffect_advances hs
  · exact modeEffect_advances hs
  · exact gateStep_advances hs hg
  · exact refreshStep_advances hs hr

/-- Settles O52: the main sequencer moves the position as said, another agent not at all. -/
theorem phasesRunInOrder : Obligations.PhasesRunInOrder := by
  intro s t h
  obtain ⟨u, ms, rfl, ⟨hm, h⟩ | ⟨-, e, rfl⟩⟩ := step_cases h
  · rcases (mainStep_advances h).position with hp | hp
    · exact .inl hp
    · exact .inr ⟨hm, by rw [hp, phaseStart_phase]⟩
  · exact .inl (by rw [envStep_frame])

end Sys2Proof.Proofs
end

section
/-! PROOFS. An iteration ends, under every schedule, with one whole refresh pass (40_main_sequencer.md R87, R88; 60_exceptions.md
R225, R231): the events a pass has still to emit are a function of the state, and each step of P6 emits the first of them. -/

namespace Sys2Proof.Proofs

open Sys2Proof.Machine Sys2Proof.Laws

variable {s t : State}

/-! ### The events a pass has still to emit -/

/-- R200 step 2 for the columns `c` and on of the pair `p`. -/
def columnsFrom (s : State) (p c : Nat) : List Event := (List.range' c (s.cfg.width - c)).flatMap (columnEvents s p)

/-- R200 step 3. -/
def pairClose (s : State) (p : Nat) : List Event :=
  [.latch true, .outputEnable s.cfg.oeAfterLatch, .addr (addrAfter s.cfg p)]

/-- R200 for the pairs `p` and on. -/
def pairsFrom (s : State) (p : Nat) : List Event := (List.range' p (s.cfg.npairs - p)).flatMap (pairEvents s)

/-- R200: what the current pair has still to emit, from a position in it. -/
def pairAhead (s : State) : PassPos → List Event
  | .outputOff => pairEvents s s.pairI
  | .latchOff => .latch false :: (columnsFrom s s.pairI s.colmI ++ pairClose s s.pairI)
  | .setBus => columnsFrom s s.pairI s.colmI ++ pairClose s s.pairI
  | .pulse => .clk :: .clr :: (columnsFrom s s.pairI (s.colmI + 1) ++ pairClose s s.pairI)
  | .clearBus => .clr :: (columnsFrom s s.pairI (s.colmI + 1) ++ pairClose s s.pairI)
  | .latchOn => pairClose s s.pairI
  | .outputAfter => [.outputEnable s.cfg.oeAfterLatch, .addr (addrAfter s.cfg s.pairI)]
  | .address => [.addr (addrAfter s.cfg s.pairI)]

/-- R200: what the current pass has still to emit; outside P6 there is no pass. -/
def passAhead (s : State) : List Event :=
  match s.seq with
  | .p6 r => pairAhead s r ++ pairsFrom s (s.pairI + 1)
  | _ => []

theorem passAhead_p6 {r : PassPos} (h : s.seq = .p6 r) : passAhead s = pairAhead s r ++ pairsFrom s (s.pairI + 1) := by
  unfold passAhead; rw [h]

theorem columnsFrom_of_lt {p c : Nat} (h : c < s.cfg.width) :
    columnsFrom s p c = columnEvents s p c ++ columnsFrom s p (c + 1) := by
  obtain ⟨k, hk⟩ : ∃ k, s.cfg.width - c = k + 1 := ⟨s.cfg.width - c - 1, by omega⟩
  have hk' : s.cfg.width - (c + 1) = k := by omega
  rw [columnsFrom, columnsFrom, hk, hk', List.range'_succ, List.flatMap_cons]

theorem columnsFrom_of_le {p c : Nat} (h : s.cfg.width ≤ c) : columnsFrom s p c = [] := by
  simp [columnsFrom, Nat.sub_eq_zero_of_le h]

theorem pairsFrom_of_lt {p : Nat} (h : p < s.cfg.npairs) : pairsFrom s p = pairEvents s p ++ pairsFrom s (p + 1) := by
  obtain ⟨k, hk⟩ : ∃ k, s.cfg.npairs - p = k + 1 := ⟨s.cfg.npairs - p - 1, by omega⟩
  have hk' : s.cfg.npairs - (p + 1) = k := by omega
  rw [pairsFrom, pairsFrom, hk, hk', List.range'_succ, List.flatMap_cons]

theorem pairsFrom_of_le {p : Nat} (h : s.cfg.npairs ≤ p) : pairsFrom s p = [] := by
  simp [pairsFrom, Nat.sub_eq_zero_of_le h]

/-- R200: a pair opens, shows its columns and closes. -/
theorem pairEvents_eq (s : State) (p : Nat) :
    pairEvents s p = .outputEnable false :: .latch false :: (columnsFrom s p 0 ++ pairClose s p) := by
  simp [pairEvents, columnsFrom, pairClose, List.range_eq_range']

/-- R200: at its start a pass has everything to emit. -/
theorem passAhead_start (hs : s.seq = .p6 .outputOff) (hp : s.pairI = 0) : passAhead s = refreshEvents s := by
  have h0 : pairsFrom s 0 = refreshEvents s := by simp [pairsFrom, refreshEvents, List.range_eq_range']
  rw [passAhead_p6 hs, pairAhead, hp, ← pairsFrom_of_lt s.cfg.npairs_pos, h0]

theorem pairEvents_length (s : State) (p : Nat) : (pairEvents s p).length = 3 * s.cfg.width + 5 := by
  simp [pairEvents, List.length_flatMap, columnEvents]
  omega

/-- R201. -/
theorem refreshEvents_length (s : State) : (refreshEvents s).length = refreshLength s.cfg := by
  simp [refreshEvents, List.length_flatMap, pairEvents_length, refreshLength]

/-- R200: a step of P6 emits the first event of those still to come and leaves the others. -/
theorem refreshStep_emits {r : PassPos} (hi : IndicesOk s) (hs : s.seq = .p6 r) (h : refreshStep r s = .next t) :
    ∃ e, t.trace = e :: s.trace ∧ passAhead s = e :: passAhead t := by
  obtain ⟨-, -, -, -, -, hpair, hcol0, hcol⟩ := hi
  rw [passAhead_p6 hs]
  cases r with
  | outputOff =>
    obtain rfl := Host.Outcome.next.inj h
    have h0 : s.colmI = 0 := by simpa [hs] using hcol0
    refine ⟨_, rfl, ?_⟩
    rw [pairAhead, pairEvents_eq, ← h0]
    rfl
  | setBus =>
    obtain ⟨-, -, rfl⟩ := presentColumn_eq_next.mp h
    refine ⟨_, rfl, ?_⟩
    rw [pairAhead, columnsFrom_of_lt hcol]
    rfl
  | clearBus =>
    obtain rfl := Host.Outcome.next.inj h
    rcases clearColumn_cases s with ⟨-, e⟩ | ⟨hlast, e⟩ <;> rw [e] <;> refine ⟨_, rfl, ?_⟩
    · rfl
    · rw [pairAhead, columnsFrom_of_le hlast]
      rfl
  | address =>
    obtain rfl := Host.Outcome.next.inj h
    rcases addressPair_cases s with ⟨hlt, e⟩ | ⟨hlast, e⟩ <;> rw [e] <;> refine ⟨_, rfl, ?_⟩
    · rw [pairsFrom_of_lt hlt]
      rfl
    · rw [pairsFrom_of_le hlast]
      rfl
  | latchOff | pulse | latchOn | outputAfter =>
    obtain rfl := Host.Outcome.next.inj h
    exact ⟨_, rfl, rfl⟩

/-! ### The main sequencer never stops -/

theorem vacateAndRemember_of_cursorOk (h : CursorOk s) : ∃ t, vacateAndRemember s = some t := by
  obtain ⟨hcur, hprev⟩ := h
  obtain ⟨u, hu⟩ : ∃ u, fbWrite s.prev.x s.prev.y s.prevColor s = some u := ⟨_, fbWrite_eq_some.mpr ⟨hprev, rfl⟩⟩
  have hb : inBounds u.cfg u.cur.x u.cur.y := by
    obtain ⟨-, rfl⟩ := fbWrite_eq_some.mp hu
    exact hcur
  rw [vacateAndRemember, hu, Option.bind_some, fbRead_eq_some.mpr ⟨hb, rfl⟩]
  exact ⟨_, rfl⟩

theorem toggleBlink_of_cursorOk (h : CursorOk s) : ∃ t, toggleBlink s = some t :=
  ⟨_, fbWrite_eq_some.mpr ⟨h.1, rfl⟩⟩

theorem stationary_of_cursorOk (h : CursorOk s) : ∃ t, stationary s = some t := by
  obtain ⟨u, hu⟩ := toggleBlink_of_cursorOk (s := { s with blinkCnt := s.blinkCnt + 1 }) h
  simp only [stationary]
  split_ifs
  · rw [hu]
    exact ⟨_, rfl⟩
  · exact ⟨_, rfl⟩

/-- R160: with the cursor in bounds a tick completes. -/
theorem tick_of_inv (hi : Inv s) (hs : atRest s.seq = true) : ∃ t, tick s = some t := by
  have hu : CursorOk (afterTrace s) := (inv_afterTrace hi hs).cursor
  change ∃ t, (if cursorMoved (afterTrace s) then vacateAndRemember (afterTrace s) else stationary (afterTrace s)) = some t
  split_ifs
  · exact vacateAndRemember_of_cursorOk hu
  · exact stationary_of_cursorOk hu

theorem gateStep_of_inv {g : GatePos} (hi : Inv s) (hs : s.seq = .p5 g) : ∃ t, gateStep g s = .next t := by
  cases g with
  | test => exact ⟨_, rfl⟩
  | clear => exact ⟨_, rfl⟩
  | tick =>
    obtain ⟨t, ht⟩ := tick_of_inv hi (by rw [hs]; rfl)
    exact ⟨_, by rw [gateStep, ht]⟩

/-- R200, R212: with its indices in range a step of the pass completes. -/
theorem refreshStep_of_inv (r : PassPos) (hi : Inv s) : ∃ t, refreshStep r s = .next t := by
  obtain ⟨-, -, -, -, -, hpair, -, hcol⟩ := hi.indices
  obtain ⟨hup, hlow⟩ := pair_inBounds hcol hpair
  cases r with
  | setBus => exact ⟨_, presentColumn_eq_next.mpr ⟨hup, hlow, rfl⟩⟩
  | _ => exact ⟨_, rfl⟩

/-- R220, R45: by the phase that steps. -/
theorem mainStep_of_inv (hi : Inv s) : ∃ t, mainStep s = .next t := by
  cases hs : s.seq with
  | p1 d => exact ⟨_, mainStep_p1 hs⟩
  | p2 q => exact ⟨_, mainStep_p2 hs⟩
  | p3 => exact ⟨_, mainStep_keyEffect hs⟩
  | p4 => exact ⟨_, mainStep_modeEffect hs⟩
  | p5 g => rw [mainStep_p5 hs]; exact gateStep_of_inv hi hs
  | p6 r => rw [mainStep_p6 hs]; exact refreshStep_of_inv r hi

/-! ### One step under any schedule -/

/-- R88: before the pass every step, whoever takes it, comes nearer to the pass or uses up the schedule, adds to the trace at
most, and enters P6 at its start alone. -/
theorem step_beforePass (hi : Inv s) (hp : s.seq.phase ≠ .p6) : ∃ t, step s = .next t ∧
    stepsToPass t + t.moves.length < stepsToPass s + s.moves.length ∧ s.trace <:+ t.trace ∧
    (t.seq.phase ≠ .p6 ∨ t.seq = .p6 .outputOff) := by
  rcases step_turn s with hm | ⟨e, rest, hmv⟩
  · obtain ⟨t, ht⟩ := mainStep_of_inv (s := { s with moves := s.moves.tail }) { hi with }
    obtain ⟨hpos, hnear, htrace, hmoves⟩ := mainStep_advances ht
    refine ⟨t, by rw [step_main hm, ht], ?_, htrace, ?_⟩
    · have hlt : stepsToPass t < stepsToPass s := hnear hp
      have hle : t.moves.length ≤ s.moves.length := by rw [hmoves]; simp
      omega
    · rcases hpos with hpos | hpos
      · exact .inl (by rw [hpos]; exact hp)
      · cases hq : s.seq.phase.after with
        | p6 => exact .inr (by rw [hpos]; simp only [hq]; rfl)
        | _ => exact .inl (by rw [hpos, phaseStart_phase]; simp [hq])
  · refine ⟨_, step_env hmv, ?_, ?_, .inl ?_⟩ <;> rw [envStep_frame]
    · simp [hmv, stepsToPass]
    · exact hp

/-- R87, R200: inside the pass a step emits the first event to come, or, being another agent's, uses up the schedule; the pass
is that of the same buffer, and it ends at the iteration boundary. -/
theorem step_inPass (hi : Inv s) (hp : s.seq.phase = .p6) : ∃ t, step s = .next t ∧
    (passAhead t).length + t.moves.length < (passAhead s).length + s.moves.length ∧
    (passAhead t).reverse ++ t.trace = (passAhead s).reverse ++ s.trace ∧
    refreshEvents t = refreshEvents s ∧ (t.seq.phase = .p6 ∨ atBoundary t) := by
  rcases step_turn s with hm | ⟨e, rest, hmv⟩
  · obtain ⟨t, ht⟩ := mainStep_of_inv (s := { s with moves := s.moves.tail }) { hi with }
    have hstep : step s = .next t := by rw [step_main hm, ht]
    obtain ⟨hpos, -, -, hmoves⟩ := mainStep_advances ht
    have hframe := refreshWritesOnlyPorts s t hm hp hstep
    have haxis : s.axisI = .x := hi.indices.1 (by simp [hp])
    obtain ⟨r, hs⟩ := phase_eq_p6.mp hp
    rw [mainStep_p6 (s := { s with moves := s.moves.tail }) hs] at ht
    obtain ⟨e, htr, hev⟩ := refreshStep_emits (s := { s with moves := s.moves.tail }) hi.indices hs ht
    have hev' : passAhead s = e :: passAhead t := hev
    refine ⟨t, hstep, ?_, ?_, ?_, ?_⟩
    · have hle : t.moves.length ≤ s.moves.length := by rw [hmoves]; simp
      rw [hev', List.length_cons]
      omega
    · simp [htr, hev']
    · rw [hframe]; rfl
    · rcases hpos with hpos | hpos
      · exact .inl (hpos.trans hp)
      · refine .inr ⟨?_, ?_⟩
        · rw [hpos]; simp only [hp]; rfl
        · rw [hframe]; exact haxis
  · refine ⟨_, step_env hmv, ?_, ?_, ?_, .inl ?_⟩ <;> rw [envStep_frame]
    · change (passAhead s).length + rest.length < (passAhead s).length + s.moves.length
      simp [hmv]
    · rfl
    · rfl
    · exact hp

/-! ### Runs -/

theorem run_add {m n : Nat} (h : Host.Core.run Sys2Proof.core m s = .next t) :
    Host.Core.run Sys2Proof.core (m + n) s = Host.Core.run Sys2Proof.core n t := by
  induction m generalizing s with
  | zero =>
    obtain rfl := Host.Outcome.next.inj h
    rw [Nat.zero_add]
  | succ m ih =>
    rw [run_succ] at h
    rw [Nat.add_right_comm, run_succ]
    cases hs : step s with
    | next u => rw [hs] at h; exact ih h
    | fault f => rw [hs] at h; cases h
    | refused r => rw [hs] at h; cases h

/-- A run of states with `P`, in which every step lowers the measure, reaches a state with `Q`. -/
theorem run_until {P Q : State → Prop} {measure : State → Nat}
    (hstep : ∀ s, P s → ∃ t, step s = .next t ∧ measure t < measure s ∧ (P t ∨ Q t)) (hs : P s) :
    ∃ (n : Nat) (t : State), 0 < n ∧ n + measure t ≤ measure s ∧ Host.Core.run Sys2Proof.core n s = .next t ∧ Q t := by
  induction hk : measure s using Nat.strong_induction_on generalizing s with
  | _ k ih =>
    obtain ⟨t, ht, hlt, hP | hQ⟩ := hstep s hs
    · obtain ⟨n, u, -, hn, hr, hu⟩ := ih _ (hk ▸ hlt) hP rfl
      exact ⟨n + 1, u, by omega, by omega, by rw [run_succ_next ht, hr], hu⟩
    · exact ⟨1, t, by omega, by omega, by rw [run_succ_next ht]; rfl, hQ⟩

/-- R24: only the pass writes its pair index. -/
theorem step_pairI (h : step s = .next t) (hp : s.seq.phase ≠ .p6) : t.pairI = s.pairI := by
  obtain ⟨-, -, -, -, -, -, -, -, -, -, -, -, -, hpass, -⟩ := eachRegisterHasItsWriter s t h
  by_contra hne
  exact hp (hpass (.inl hne)).2

/-- What holds from a position before the pass, with these parameters and this trace, up to the pass's start. -/
structure Since (cfg : Config) (trace : List Event) (s : State) : Prop where
  inv : Inv s
  cfg : s.cfg = cfg
  trace : trace <:+ s.trace
  pair : s.pairI = 0

/-- R88: from any position before the pass the run reaches its start. -/
theorem run_toPass (hi : Inv s) (hp : s.seq.phase ≠ .p6) : ∃ (n : Nat) (t : State),
    n + t.moves.length ≤ stepsToPass s + s.moves.length ∧ Host.Core.run Sys2Proof.core n s = .next t ∧
    t.seq = .p6 .outputOff ∧ Since s.cfg s.trace t := by
  have hs : Since s.cfg s.trace s := by
    obtain ⟨-, -, -, -, hpair, -⟩ := hi.indices
    exact ⟨hi, rfl, List.suffix_rfl, hpair hp⟩
  obtain ⟨n, t, -, hn, hr, hq, ht⟩ := run_until
    (P := fun u => u.seq.phase ≠ .p6 ∧ Since s.cfg s.trace u) (Q := fun u => u.seq = .p6 .outputOff ∧ Since s.cfg s.trace u)
    (measure := fun u => stepsToPass u + u.moves.length) (fun u ⟨hq, hu⟩ => by
      obtain ⟨t, ht, hlt, htr, hseq⟩ := step_beforePass hu.inv hq
      have hsince : Since s.cfg s.trace t :=
        ⟨everyStepKeepsTheInvariant u t hu.inv ht, (parametersNeverChange u t ht).trans hu.cfg, hu.trace.trans htr,
          (step_pairI ht hq).trans hu.pair⟩
      exact ⟨t, ht, hlt, hseq.imp (⟨·, hsince⟩) (⟨·, hsince⟩)⟩) ⟨hp, hs⟩
  exact ⟨n, t, by omega, hr, hq, ht⟩

/-- What holds all through a pass with the events `events`, at whose end the trace is `trace`. -/
structure Through (events trace : List Event) (s : State) : Prop where
  inv : Inv s
  trace : (passAhead s).reverse ++ s.trace = trace
  events : refreshEvents s = events

/-- R200: from any position in the pass the run emits what the pass has still to emit and reaches the iteration boundary. -/
theorem run_pass (hi : Inv s) (hp : s.seq.phase = .p6) : ∃ (n : Nat) (t : State), 0 < n ∧
    n ≤ (passAhead s).length + s.moves.length ∧ Host.Core.run Sys2Proof.core n s = .next t ∧ atBoundary t ∧
    t.trace = (passAhead s).reverse ++ s.trace ∧ refreshEvents t = refreshEvents s := by
  obtain ⟨n, t, h0, hn, hr, hb, -, htr, hev⟩ := run_until
    (P := fun u => u.seq.phase = .p6 ∧ Through (refreshEvents s) ((passAhead s).reverse ++ s.trace) u)
    (Q := fun u => atBoundary u ∧ Through (refreshEvents s) ((passAhead s).reverse ++ s.trace) u)
    (measure := fun u => (passAhead u).length + u.moves.length) (fun u ⟨hq, hu⟩ => by
      obtain ⟨t, ht, hlt, htr, hev, hseq⟩ := step_inPass hu.inv hq
      have hthrough : Through (refreshEvents s) ((passAhead s).reverse ++ s.trace) t :=
        ⟨everyStepKeepsTheInvariant u t hu.inv ht, htr.trans hu.trace, hev.trans hu.events⟩
      exact ⟨t, ht, hlt, hseq.imp (⟨·, hthrough⟩) (⟨·, hthrough⟩)⟩) ⟨hp, hi, rfl, rfl⟩
  have hdone : passAhead t = [] := by unfold passAhead; rw [hb.1]
  refine ⟨n, t, h0, by omega, hr, hb, ?_, hev⟩
  rw [← htr, hdone]
  rfl

theorem stepsToPass_of_atBoundary (h : atBoundary s) : stepsToPass s = 34 := by
  obtain ⟨hs, hx⟩ := h
  simp [stepsToPass, hs, hx, drainAhead]

/-- Settles O60: to the start of the pass, then through it. -/
theorem everyIterationCompletes : Obligations.EveryIterationCompletes := by
  intro s hi hb
  obtain ⟨n, u, hn, hrun, hu, hsince⟩ := run_toPass hi (by rw [hb.1]; decide)
  have hahead : passAhead u = refreshEvents u := passAhead_start hu hsince.pair
  obtain ⟨m, t, h0, hm, hrun', ht, htr, hev⟩ := run_pass hsince.inv (by rw [hu]; rfl)
  rw [hahead, refreshEvents_length, hsince.cfg, refreshLength] at hm
  rw [stepsToPass_of_atBoundary hb] at hn
  obtain ⟨before, hbefore⟩ := hsince.trace
  refine ⟨n + m, t, by omega, by omega, by rw [run_add hrun, hrun'], ht, before, ?_⟩
  rw [htr, hahead, hev, List.append_assoc, hbefore]

end Sys2Proof.Proofs
end

section
/-! PROOFS. The analog acquisition: the completion of a conversion (41_analog_acquisition.md R92), and the drain of both axes in
phase P1 (R94), as the body of one axis run twice. -/

namespace Sys2Proof.Proofs

open Sys2Proof.Machine Sys2Proof.Laws

variable {s : State} {rest : List Move} {a : Axis}

/-! ### The completion of a conversion -/

theorem step_complete_busy (h : s.moves = .env (.complete a) :: rest) (hb : s.conv.get a = .busy) : step s = .next { s with
    moves := rest, sample := s.sample.set a (s.adcIn.get a), fresh := s.fresh.set a true, conv := s.conv.set a .idle } := by
  rw [step_env h]
  rcases completeConversion_cases a { s with moves := rest } with ⟨-, e⟩ | ⟨hn, -⟩
  · exact congrArg _ e
  · exact absurd hb hn

theorem step_complete_idle (h : s.moves = .env (.complete a) :: rest) (hi : s.conv.get a = .idle) :
    step s = .next { s with moves := rest } := by
  rw [step_env h]
  rcases completeConversion_cases a { s with moves := rest } with ⟨hb, -⟩ | ⟨-, e⟩
  · exact absurd (hi.symm.trans hb) (by decide)
  · exact congrArg _ e

/-- Settles O39, by the axis and its converter. -/
theorem completionStep : Obligations.CompletionStep := fun _ _ =>
  ⟨fun h => ⟨step_complete_busy (a := .x) h, step_complete_idle (a := .x) h⟩,
    fun h => ⟨step_complete_busy (a := .y) h, step_complete_idle (a := .y) h⟩⟩

/-! ### The drain of one axis -/

/-- R94: the effect of one axis's body, but for the loop index and the position. -/
def drained (a : Axis) (s : State) : State := { s with
  fresh := s.fresh.set a false
  joy := s.joy.set a (if sampleFresh a s then readSample a s else s.joy.get a)
  conv := s.conv.set a (if sampleFresh a s then .busy else s.conv.get a)
  trace := (if sampleFresh a s then [.start a] else []) ++ s.trace }

/-- R94: how many atomic steps one axis's body takes. -/
def drainLength (a : Axis) (s : State) : Nat := if sampleFresh a s then 4 else 1

/-- R94: the flag cleared and the sample copied, before the conversion is restarted. -/
def taken (a : Axis) (s : State) : State := { clearFresh a s with joy := s.joy.set a (readSample a s) }

theorem set_get_self {α : Type} (p : PerAxis α) (a : Axis) : p.set a (p.get a) = p := by cases a <;> rfl

theorem drained_fresh (h : sampleFresh a s = true) : drained a s = startConversion a (taken a s) := by
  simp only [drained, h, if_true]
  rfl

/-- R94: an axis whose flag is clear is skipped. -/
theorem drained_not_fresh (h : ¬ sampleFresh a s = true) : drained a s = s := by
  have hf : s.fresh.get a = false := Bool.eq_false_iff.mpr h
  have hfresh : s.fresh.set a false = s.fresh := by rw [← hf, set_get_self]
  simp [drained, h, hfresh, set_get_self]

theorem drainNext_moveTo (p : SeqPos) (s : State) : drainNext { s with seq := p } = drainNext s := by
  cases h : s.axisI <;> simp only [drainNext, h]

/-- The main sequencer's next step of P1 in a run with nothing scheduled. -/
theorem run_drain (n : Nat) (d : DrainPos) (hs : s.seq = .p1 d) (hm : s.moves = []) :
    Host.Core.run Sys2Proof.core (n + 1) s = Host.Core.run Sys2Proof.core n (drainStep d s) := by
  have hstep : step s = .next (drainStep d s) := by unfold step; rw [hm]; exact mainStep_p1 hs
  exact run_succ_next hstep

/-- R94: the body of the current axis, run with no step of another agent between, from its test to its end. -/
theorem run_drainBody (hs : s.seq = .p1 .test) (hm : s.moves = []) :
    Host.Core.run Sys2Proof.core (drainLength s.axisI s) s = .next (drainNext (drained s.axisI s)) := by
  unfold drainLength
  split_ifs with hf
  · calc Host.Core.run Sys2Proof.core 4 s
      _ = Host.Core.run Sys2Proof.core 3 { s with seq := .p1 .clear } := by rw [run_drain 3 .test hs hm, drainStep_test_fresh hf]
      _ = Host.Core.run Sys2Proof.core 2 { clearFresh s.axisI s with seq := .p1 .read } := run_drain 2 .clear rfl (by exact hm)
      _ = Host.Core.run Sys2Proof.core 1 { taken s.axisI s with seq := .p1 .start } := run_drain 1 .read rfl (by exact hm)
      _ = Host.Core.run Sys2Proof.core 0 (drainNext { startConversion s.axisI (taken s.axisI s) with seq := .p1 .start }) :=
        run_drain 0 .start rfl (by exact hm)
      _ = .next (drainNext (drained s.axisI s)) := by rw [drainNext_moveTo, drained_fresh hf]; rfl
  · calc Host.Core.run Sys2Proof.core 1 s
      _ = Host.Core.run Sys2Proof.core 0 (drainNext s) := by rw [run_drain 0 .test hs hm, drainStep_test_not_fresh hf]
      _ = .next (drainNext (drained s.axisI s)) := by rw [drained_not_fresh hf]; rfl

/-! ### The drain of both axes -/

/-- R94: the body of X leads to the test of Y. -/
theorem run_drainX (hs : s.seq = .p1 .test) (hx : s.axisI = .x) (hm : s.moves = []) :
    Host.Core.run Sys2Proof.core (drainLength .x s) s = .next { drained .x s with axisI := .y, seq := .p1 .test } := by
  have hnext : drainNext (drained .x s) = { drained .x s with axisI := .y, seq := .p1 .test } := by
    simp [drainNext, drained, hx]
  have hrun := run_drainBody hs hm
  rwa [hx, hnext] at hrun

/-- R94: the body of Y leads to P2. -/
theorem run_drainY (hs : s.seq = .p1 .test) (hy : s.axisI = .y) (hm : s.moves = []) :
    Host.Core.run Sys2Proof.core (drainLength .y s) s = .next { drained .y s with axisI := .x, seq := .p2 .drive } := by
  have hnext : drainNext (drained .y s) = { drained .y s with axisI := .x, seq := .p2 .drive } := by
    simp [drainNext, drained, hy]
  have hrun := run_drainBody hs hm
  rwa [hy, hnext] at hrun

/-- Settles O44: the body of X, then the body of Y, whose flag, sample and converter the first leaves as they were. -/
theorem drainPhase : Obligations.DrainPhase := by
  intro s hs hx hm
  have hfirst := run_drainX hs hx hm
  have hsecond := run_drainY (s := { drained .x s with axisI := .y, seq := .p1 .test }) rfl rfl hm
  refine (run_add hfirst).trans (hsecond.trans ?_)
  rw [List.append_assoc]
  rfl

end Sys2Proof.Proofs
end

section
/-! PROOFS. The keypad (42_keypad_scanner.md): one sweep of phase P2 (R100), run with no other agent between, as the four rounds of
the row loop inside the body of one column, and that body run for each column up to the first press (R103, R107). -/

namespace Sys2Proof.Proofs

open Sys2Proof.Machine Sys2Proof.Laws

variable {s : State} {c : Fin 3}

/-! ### The first held row of a column -/

/-- R100, R103: the smallest row of column `c` whose key is held. -/
def firstRow (keys : List (Fin 4 × Fin 3)) (c : Fin 3) : Option (Fin 4) := (List.finRange 4).find? fun r => keys.contains (r, c)

/-- R103: the key of a sweep is the first held row of the first column that has one. -/
theorem firstKey_eq_findSome (keys : List (Fin 4 × Fin 3)) :
    firstKey keys = (List.finRange 3).findSome? fun c => (firstRow keys c).map fun r => (r, c) := by
  simp only [firstKey, firstRow, List.find?_flatMap, List.find?_map, Function.comp_def]

theorem columnHeld_eq_isSome (keys : List (Fin 4 × Fin 3)) (c : Fin 3) : columnHeld keys c = (firstRow keys c).isSome := by
  rw [Bool.eq_iff_iff, columnHeld, firstRow, List.any_eq_true, List.find?_isSome]

/-- R102: bit `r` of the mask read in column `c` is the key `(r, c)`. -/
theorem getLsbD_columnMask (keys : List (Fin 4 × Fin 3)) (c : Fin 3) (r : Fin 4) :
    (columnMask keys c).getLsbD r.val = keys.contains (r, c) := by
  have hbits : ∀ (b : Fin 4 → Bool) (r : Fin 4),
      (BitVec.ofBool (b 3) ++ BitVec.ofBool (b 2) ++ BitVec.ofBool (b 1) ++ BitVec.ofBool (b 0)).getLsbD r.val = b r := by decide
  exact hbits (fun r => keys.contains (r, c)) r

/-! ### The row loop -/

/-- R100: what one round of the row loop makes of the row found so far. -/
def keepRow (m : BitVec 4) (hit : Option (Fin 4)) (r : Fin 4) : Option (Fin 4) :=
  if m.getLsbD r.val ∧ hit = none then some r else hit

/-- R100: the rounds of the row loop keep the first asserted row. -/
theorem foldl_keepRow (m : BitVec 4) (rows : List (Fin 4)) (hit : Option (Fin 4)) :
    rows.foldl (keepRow m) hit = hit.or (rows.find? fun r => m.getLsbD r.val) := by
  induction rows generalizing hit with
  | nil => simp
  | cons r rows ih =>
    rw [List.foldl_cons, ih, List.find?_cons]
    cases hit with
    | some r0 => simp [keepRow]
    | none => by_cases hr : m.getLsbD r.val = true <;> simp only [keepRow, hr] <;> simp

theorem foldl_keepRow_columnMask (keys : List (Fin 4 × Fin 3)) (c : Fin 3) :
    (List.finRange 4).foldl (keepRow (columnMask keys c)) none = firstRow keys c := by
  simp only [foldl_keepRow, Option.none_or, getLsbD_columnMask, firstRow]

/-- The main sequencer's next step of P2 in a run with nothing scheduled. -/
theorem run_scan (n : Nat) (q : ScanPos) (hs : s.seq = .p2 q) (hm : s.moves = []) :
    Host.Core.run Sys2Proof.core (n + 1) s = Host.Core.run Sys2Proof.core n (scanStep q s) := by
  have hstep : step s = .next (scanStep q s) := by unfold step; rw [hm]; exact mainStep_p2 hs
  exact run_succ_next hstep

/-- R100: the four rounds of the row loop. -/
theorem run_rows (hs : s.seq = .p2 .rows) (hr : s.rowI = 0) (hm : s.moves = []) :
    Host.Core.run Sys2Proof.core 4 s = .next { s with
      seq := .p2 .release, scanHit := (List.finRange 4).foldl (keepRow s.scanMask) s.scanHit } := by
  have round (n : Nat) (r r' : Fin 4) (hit : Option (Fin 4)) (hn : nextRow r = some r') :
      Host.Core.run Sys2Proof.core (n + 1) { s with rowI := r, scanHit := hit } =
        Host.Core.run Sys2Proof.core n { s with rowI := r', scanHit := keepRow s.scanMask hit r } := by
    rw [run_scan n .rows (by exact hs) (by exact hm)]
    simp only [scanStep, scanRow, hn, keepRow]
  have hstart : s = { s with rowI := 0, scanHit := s.scanHit } := by rw [← hr]
  conv_lhs => rw [hstart]
  rw [round 3 0 1 _ rfl, round 2 1 2 _ rfl, round 1 2 3 _ rfl, run_scan 0 .rows (by exact hs) (by exact hm), hr]
  rfl

/-! ### The body of one column -/

/-- R100, R107: the sweep stands before the column `c`: nothing read yet, every column released, nothing scheduled. -/
structure AtColumn (c : Fin 3) (s : State) : Prop where
  seq : s.seq = .p2 .drive
  colI : s.colI = c
  rowI : s.rowI = 0
  scanMask : s.scanMask = 0#4
  scanHit : s.scanHit = none
  colDrive : s.colDrive = #v[false, false, false]
  moves : s.moves = []

/-- R107: the events of one column. -/
def columnSweepEvents (keys : List (Fin 4 × Fin 3)) (c : Fin 3) : List Event :=
  [.columnOn c, .rows (columnMask keys c), .columnOff c]

/-- R102: while one column alone is driven, the row lines are the held keys of that column. -/
theorem rowMask_of_driven (h : s.colDrive = #v[false, false, false].set c true) : rowMask s = columnMask s.keysDown c := by
  have hrow (r : Fin 4) : rowAsserted s r = s.keysDown.contains (r, c) := by
    unfold rowAsserted
    rw [h]
    fin_cases c <;> simp
  simp only [rowMask, columnMask, hrow]

/-- R107: a column driven and released leaves every column released. -/
theorem release_drive (c : Fin 3) : (#v[false, false, false].set c true).set c false = #v[false, false, false] := by
  revert c; decide

/-- R100: the column `c` driven and its mask read. -/
def columnSensed (c : Fin 3) (s : State) : State := { s with
  seq := .p2 .rows
  colDrive := #v[false, false, false].set c true
  scanMask := columnMask s.keysDown c
  trace := .rows (columnMask s.keysDown c) :: .columnOn c :: s.trace }

/-- R100: the row loop of the column `c` done, the column not yet released. -/
def columnRead (c : Fin 3) (s : State) : State :=
  { columnSensed c s with seq := .p2 .release, scanHit := firstRow s.keysDown c }

/-- R100: the column `c` released again, with the row found in it. -/
def columnDone (c : Fin 3) (s : State) : State := { s with
  seq := .p2 .release
  scanMask := columnMask s.keysDown c
  scanHit := firstRow s.keysDown c
  trace := (columnSweepEvents s.keysDown c).reverse ++ s.trace }

theorem sense_after_drive (h : AtColumn c s) : scanStep .sense { driveColumn c s with seq := .p2 .sense } = columnSensed c s := by
  have hdriven : s.colDrive.set c true = #v[false, false, false].set c true := by rw [h.colDrive]
  have hmask := rowMask_of_driven (s := { driveColumn c s with seq := .p2 .sense }) hdriven
  simp only [scanStep, hmask]
  simp only [emit, driveColumn, columnSensed, hdriven, h.rowI, h.scanHit]

theorem releaseColumn_columnRead (h : AtColumn c s) : releaseColumn c (columnRead c s) = columnDone c s := by
  simp only [releaseColumn, emit, columnRead, columnSensed, columnDone, release_drive, h.colDrive]
  rfl

theorem run_columnRows (h : AtColumn c s) : Host.Core.run Sys2Proof.core 4 (columnSensed c s) = .next (columnRead c s) := by
  have hrows := run_rows (s := columnSensed c s) rfl h.rowI h.moves
  have hhit : (columnSensed c s).scanHit = none := h.scanHit
  have hmask : (columnSensed c s).scanMask = columnMask s.keysDown c := rfl
  rw [hhit, hmask, foldl_keepRow_columnMask] at hrows
  exact hrows

/-- R100: the body of a column, but for what follows its release. -/
theorem run_columnBody (h : AtColumn c s) : Host.Core.run Sys2Proof.core 7 s = .next (scanRelease (columnRead c s)) := by
  have hdrive : Host.Core.run Sys2Proof.core 7 s = Host.Core.run Sys2Proof.core 6 { driveColumn c s with seq := .p2 .sense } := by
    rw [← h.colI]
    exact run_scan 6 .drive h.seq h.moves
  have hsense := run_scan (s := { driveColumn c s with seq := .p2 .sense }) 5 .sense rfl h.moves
  rw [sense_after_drive h] at hsense
  have hrows := run_add (n := 1) (run_columnRows h)
  have hrelease := run_scan (s := columnRead c s) 0 .release rfl h.moves
  exact hdrive.trans (hsense.trans (hrows.trans hrelease))

/-- R100: what follows the release of a column: the key found, the next column, or the end without a key. -/
def afterColumn (c : Fin 3) (s : State) : State :=
  match firstRow s.keysDown c, nextCol c with
  | some r, _ => endScan (keyFound r c) (columnDone c s)
  | none, some d => { columnDone c s with colI := d, scanMask := 0#4, seq := .p2 .drive }
  | none, none => endScan keyNone (columnDone c s)

theorem scanRelease_columnRead (h : AtColumn c s) : scanRelease (columnRead c s) = afterColumn c s := by
  have hcol : (columnRead c s).colI = c := h.colI
  have hhit : (columnRead c s).scanHit = firstRow s.keysDown c := rfl
  simp only [scanRelease, afterColumn, hcol, hhit, releaseColumn_columnRead h]
  cases firstRow s.keysDown c <;> cases nextCol c <;> rfl

/-! ### The sweep, column by column -/

/-- The state in which a sweep from `s` ends when it reports `k` and adds the events `es`. -/
def swept (k : KeyReg) (es : List Event) (s : State) : State :=
  { s with seq := .p3, key := k, colI := 0, trace := es.reverse ++ s.trace }

/-- The state before the column `c` when the sweep has added the events `es`. -/
def movedOn (c : Fin 3) (es : List Event) (s : State) : State := { s with colI := c, trace := es.reverse ++ s.trace }

theorem atColumn_movedOn (h : AtColumn c s) (d : Fin 3) (es : List Event) : AtColumn d (movedOn d es s) := { h with colI := rfl }

theorem swept_movedOn (k : KeyReg) (es ds : List Event) (c : Fin 3) (s : State) :
    swept k es (movedOn c ds s) = swept k (ds ++ es) s := by
  simp only [swept, movedOn, List.reverse_append, List.append_assoc]

/-- R106: the end of a sweep keeps nothing of it but its key and its events. -/
theorem endScan_columnDone (h : AtColumn c s) (k : KeyReg) :
    endScan k (columnDone c s) = swept k (columnSweepEvents s.keysDown c) s := by
  simp only [endScan, columnDone, swept, h.rowI, h.scanMask, h.scanHit]

/-- The rest of the sweep from `s` visits the columns `cols` and reports `k`. -/
def SweepsTo (s : State) (cols : List (Fin 3)) (k : KeyReg) : Prop :=
  Host.Core.run Sys2Proof.core (7 * cols.length) s = .next (swept k (cols.flatMap (columnSweepEvents s.keysDown)) s)

/-- R100, R104: a column with a press ends the sweep. -/
theorem sweepsTo_of_held (h : AtColumn c s) {r : Fin 4} (hr : firstRow s.keysDown c = some r) : SweepsTo s [c] (keyFound r c) := by
  refine (run_columnBody h).trans (congrArg _ ?_)
  rw [scanRelease_columnRead h, afterColumn, hr]
  exact endScan_columnDone h _

/-- R105: the last column without a press ends the sweep with none. -/
theorem sweepsTo_of_last (h : AtColumn c s) (hr : firstRow s.keysDown c = none) (hc : nextCol c = none) :
    SweepsTo s [c] keyNone := by
  refine (run_columnBody h).trans (congrArg _ ?_)
  rw [scanRelease_columnRead h, afterColumn, hr, hc]
  exact endScan_columnDone h _

/-- R100: after a column without a press comes the next one. -/
theorem sweepsTo_of_next (h : AtColumn c s) {d : Fin 3} {cols : List (Fin 3)} {k : KeyReg}
    (hr : firstRow s.keysDown c = none) (hc : nextCol c = some d)
    (hrest : SweepsTo (movedOn d (columnSweepEvents s.keysDown c) s) cols k) : SweepsTo s (c :: cols) k := by
  have hmove : afterColumn c s = movedOn d (columnSweepEvents s.keysDown c) s := by
    rw [afterColumn, hr, hc]
    simp only [columnDone, movedOn, hr, h.seq, h.scanMask, h.scanHit]
  have hnext : Host.Core.run Sys2Proof.core 7 s = .next (movedOn d (columnSweepEvents s.keysDown c) s) := by
    rw [run_columnBody h, scanRelease_columnRead h, hmove]
  unfold SweepsTo at hrest ⊢
  rw [swept_movedOn] at hrest
  rw [List.length_cons, Nat.mul_succ, Nat.add_comm, List.flatMap_cons]
  exact (run_add hnext).trans hrest

/-- R103: the columns visited and the key reported, by the first column that has a held row. -/
theorem sweepsTo_scanResult (h : AtColumn 0 s) : SweepsTo s (sweepColumns s.keysDown) (scanResult s.keysDown) := by
  have hcols : List.finRange 3 = [0, 1, 2] := rfl
  simp only [sweepColumns, scanResult, columnHeld_eq_isSome, firstKey_eq_findSome, hcols, List.findSome?_cons, List.findSome?_nil]
  cases h0 : firstRow s.keysDown 0 with
  | some r => exact sweepsTo_of_held h h0
  | none =>
    have at1 := atColumn_movedOn h 1 (columnSweepEvents s.keysDown 0)
    cases h1 : firstRow s.keysDown 1 with
    | some r => exact sweepsTo_of_next h h0 rfl (sweepsTo_of_held at1 h1)
    | none =>
      have at2 := atColumn_movedOn at1 2 (columnSweepEvents s.keysDown 1)
      cases h2 : firstRow s.keysDown 2 with
      | some r => exact sweepsTo_of_next h h0 rfl (sweepsTo_of_next at1 h1 rfl (sweepsTo_of_held at2 h2))
      | none => exact sweepsTo_of_next h h0 rfl (sweepsTo_of_next at1 h1 rfl (sweepsTo_of_last at2 h2 rfl))

/-- Settles O45, by the column that holds the first key. -/
theorem keypadSweep : Obligations.KeypadSweep := by
  intro s hseq hcol hrow hmask hhit hdrive hmoves
  have hrun := sweepsTo_scanResult ⟨hseq, hcol, hrow, hmask, hhit, hdrive, hmoves⟩
  have hfinal : swept (scanResult s.keysDown) (sweepEvents s.keysDown) s = { s with
      seq := .p3, key := scanResult s.keysDown, trace := (sweepEvents s.keysDown).reverse ++ s.trace } := by
    simp only [swept, hcol]
  exact hrun.trans (congrArg _ hfinal)

end Sys2Proof.Proofs
end

section
/-! PROOFS. The mode dispatcher (43_mode_dispatcher.md): what each key word does to the whole state (R111 to R118), the table of
modes and selections that P3 follows (R119), and that a key executed again at once changes nothing more (R120). -/

namespace Sys2Proof.Proofs

open Sys2Proof.Machine Sys2Proof.Laws

variable {s : State} {v n : BitVec 4} {i : Instr}

/-! ### A selection -/

/-- R118: activation resets the accumulator of the tool `n` and no other. -/
theorem activate_eq (n : BitVec 4) (s : State) : activate n s = { s with
    accLine := if n = 3#4 then .unset else s.accLine
    accRect := if n = 4#4 then .unset else s.accRect
    accTri := if n = 5#4 then .unset else s.accTri } := by
  by_cases h3 : n = 3#4
  · subst h3; rfl
  by_cases h4 : n = 4#4
  · subst h4; rfl
  by_cases h5 : n = 5#4
  · subst h5; rfl
  simp only [activate, h3, h4, h5, if_false]

/-- R116, R118 (D19): the whole effect of `SEL n`, each accumulator with the condition under which it is reset. -/
theorem select_eq (n : BitVec 4) (s : State) : select n s = { s with
    sel := n
    accLine := if s.mode = .draw ∧ n ≠ s.sel ∧ n = 3#4 then .unset else s.accLine
    accRect := if s.mode = .draw ∧ n ≠ s.sel ∧ n = 4#4 then .unset else s.accRect
    accTri := if s.mode = .draw ∧ n ≠ s.sel ∧ n = 5#4 then .unset else s.accTri } := by
  simp only [select, ← and_assoc]
  by_cases h : s.mode = .draw ∧ n ≠ s.sel
  · simp only [eq_true h, if_true, true_and, activate_eq]
  · simp only [eq_false h, if_false, false_and]

/-- R116: a selection keeps the mode. -/
theorem select_mode (n : BitVec 4) (s : State) : (select n s).mode = s.mode := by rw [select_eq]

theorem select_sel (n : BitVec 4) (s : State) : (select n s).sel = n := by rw [select_eq]

/-- R118: the selection already made activates no tool. -/
theorem select_of_sel_eq (h : s.sel = n) : select n s = s := by
  subst h
  exact if_neg fun hdraw => hdraw.2 rfl

/-! ### A pressed key -/

/-- R110: a pressed key runs the instruction its nibble decodes to, with the effect that `pressKey` states. -/
theorem pressed_word_runs (h : decodePressed v = i) :
    decode (.k5 (makeKeyWord true v)) = i ∧ ∀ s : State, exec i s = .next (pressKey v s) :=
  ⟨(decode_pressed v).trans h, fun s => h ▸ exec_decodePressed v s⟩

theorem pressKey_of_isSelection (h : isSelection v) (s : State) : pressKey v s = select v s := by
  have hmode : v ≠ 0xA#4 ∧ v ≠ 0x0#4 ∧ v ≠ 0xB#4 ∧ v ≠ 0x9#4 := by revert v; decide
  obtain ⟨hA, h0, hB, h9⟩ := hmode
  rw [pressKey, if_neg hA, if_neg h0, if_neg hB, if_neg h9, if_pos h]

/-- R117 (D14): a reserved nibble is neither a mode key nor a selection. -/
theorem pressKey_of_reserved (h : 0xC#4 ≤ v) (s : State) : pressKey v s = s := by
  have hother : v ≠ 0xA#4 ∧ v ≠ 0x0#4 ∧ v ≠ 0xB#4 ∧ v ≠ 0x9#4 ∧ ¬ isSelection v := by revert v; decide
  obtain ⟨hA, h0, hB, h9, hs⟩ := hother
  rw [pressKey, if_neg hA, if_neg h0, if_neg hB, if_neg h9, if_neg hs]

/-- R120: a mode key leaves what it wrote, and a selection does not activate again. -/
theorem pressKey_pressKey (v : BitVec 4) (s : State) : pressKey v (pressKey v s) = pressKey v s := by
  unfold pressKey
  split_ifs with hA h0 hB h9 hs
  · rfl
  · rfl
  · rfl
  · rfl
  · exact select_of_sel_eq (select_sel v s)
  · rfl

/-! ### The table and the repetition -/

theorem keyEffect_of_pressed (h : s.key.pressed = true) : keyEffect s = pressKey s.key.v s := if_pos h

/-- R119: the table's columns, for every mode. The nibbles 1 to 8 are the selections once the mode key `0` is ruled out. -/
theorem keyEffect_mode_sel (s : State) : ((keyEffect s).mode, (keyEffect s).sel) =
    if s.key.pressed = false then (s.mode, s.sel)
    else if s.key.v = 0xA#4 then (.color, selNone)
    else if s.key.v = 0x0#4 then (.fill, selNone)
    else if s.key.v = 0xB#4 then (.draw, selNone)
    else if s.key.v = 0x9#4 then (.speed, selNone)
    else if s.key.v.toNat ≤ 8 then (s.mode, s.key.v)
    else (s.mode, s.sel) := by
  by_cases hp : s.key.pressed = true
  · rw [keyEffect_of_pressed hp, if_neg (ne_false_of_eq_true hp)]
    unfold pressKey
    split_ifs with hA h0 hB h9 hs h8 h8
    · rfl
    · rfl
    · rfl
    · rfl
    · rw [select_mode, select_sel]
    · exact absurd hs.2 h8
    · have hpos : s.key.v.toNat ≠ 0 := fun hz => h0 (BitVec.eq_of_toNat_eq hz)
      exact absurd ⟨Nat.one_le_iff_ne_zero.mpr hpos, h8⟩ hs
    · rfl
  · rw [keyEffect_of_not_pressed hp, if_pos (eq_false_of_ne_true hp)]

/-- Settles O14: P3 applies the key's effect, which the table describes. -/
theorem modeTable : Obligations.ModeTable := fun s hmain hseq =>
  ⟨_, (step_main hmain).trans (mainStep_keyEffect hseq), rfl, keyEffect_mode_sel { s with moves := s.moves.tail }⟩

/-- Settles O15, by whether the word has a key pressed. -/
theorem repeatedKeyChangesNothing : Obligations.RepeatedKeyChangesNothing := by
  intro w s t h
  obtain ⟨p, v, rfl⟩ : ∃ p v, w = makeKeyWord p v := ⟨_, _, (makeKeyWord_fields w).symm⟩
  cases p with
  | false =>
    rw [decode_notPressed]
    rfl
  | true =>
    rw [decode_pressed, exec_decodePressed] at h ⊢
    obtain rfl := Host.Outcome.next.inj h
    rw [pressKey_pressKey]

/-! ### Each key word -/

/-- Settles O7. -/
theorem nokeyWritesNothing : Obligations.NokeyWritesNothing := fun v _ => ⟨decode_notPressed v, rfl⟩

/-- Settles O8. -/
theorem modeColorKey : Obligations.ModeColorKey := pressed_word_runs (v := 0xA#4) rfl

/-- Settles O9. -/
theorem modeFillKey : Obligations.ModeFillKey := pressed_word_runs (v := 0x0#4) rfl

/-- Settles O10. -/
theorem modeDrawKey : Obligations.ModeDrawKey := pressed_word_runs (v := 0xB#4) rfl

/-- Settles O11. -/
theorem modeSpeedKey : Obligations.ModeSpeedKey := pressed_word_runs (v := 0x9#4) rfl

/-- R64: the nibbles of the eight selection keys. -/
theorem decodePressed_selections : ∀ p ∈ [(Instr.sel1, 1#4), (.sel2, 2#4), (.sel3, 3#4), (.sel4, 4#4), (.sel5, 5#4),
    (.sel6, 6#4), (.sel7, 7#4), (.sel8, 8#4)], decodePressed p.2 = p.1 ∧ isSelection p.2 := by decide

/-- Settles O12: the key of a selection has the effect of `select`. -/
theorem selectionKeys : Obligations.SelectionKeys := by
  intro i n hmem
  obtain ⟨hdec, hsel⟩ := decodePressed_selections (i, n) hmem
  obtain ⟨hword, hexec⟩ := pressed_word_runs hdec
  refine ⟨hword, fun s => ?_⟩
  rw [hexec, pressKey_of_isSelection hsel, select_eq]
  rfl

/-- Settles O13. -/
theorem reservedKeysWriteNothing : Obligations.ReservedKeysWriteNothing := by
  intro v hv
  obtain ⟨hword, hexec⟩ := pressed_word_runs (decodePressed_of_reserved hv)
  exact ⟨hword, fun s => (hexec s).trans (congrArg _ (pressKey_of_reserved hv s))⟩

end Sys2Proof.Proofs
end

section
/-! PROOFS. The mode operations that write a register or the whole buffer (44_mode_semantics.md R131 to R139, R143, R144,
R149): each word of the tables decodes to its instruction, and the instruction's next state from every state. -/

namespace Sys2Proof.Proofs

open Sys2Proof.Machine Sys2Proof.Laws

variable {n : BitVec 4} {i : Instr} {k : Fin 8}

/-! ### Mode words with a selection -/

/-- R131, R133, R135, R138 to R144: the effect of the mode word with the selection `n`, but for the button flag. -/
def selectedEffect (m : Mode) (n : BitVec 4) (s : State) : State :=
  match m with
  | .color => setDrawColor n s
  | .fill => fillOnce n s
  | .draw => drawTool n s
  | .speed => setDivisor n s

/-- R130, R148: a mode word with a selection has the selection's effect in its mode and consumes the button flag. -/
theorem exec_of_isSelection (h : isSelection n) (m : Mode) (s : State) :
    exec (decode (.m6 (makeModeWord m.bits n))) s = .next (consumeButton (selectedEffect m n s)) := by
  rw [decode_makeModeWord]
  cases m with
  | color => simp only [exec_decodeColorSel, if_pos h, selectedEffect]
  | fill => simp only [exec_decodeFillSel, if_pos h, selectedEffect]
  | draw => simp only [exec_decodeDrawSel, selectedEffect]
  | speed => simp only [exec_decodeSpeedSel, if_pos h, selectedEffect]

/-- R66: a row of the mode `m`: an instruction, the selection in its word, and the index of that selection. -/
abbrev isSelectionRow (m : Mode) (row : Instr × BitVec 4 × Fin 8) : Prop :=
  decode (.m6 (makeModeWord m.bits row.2.1)) = row.1 ∧ isSelection row.2.1 ∧ selIndex row.2.1 = row.2.2

/-- R66, R130: what each row of a list of such rows says of its word, its instruction and its index. -/
theorem selectionRow_runs {m : Mode} {rows : List (Instr × BitVec 4 × Fin 8)}
    (hrows : ∀ row ∈ rows, isSelectionRow m row) (hmem : (i, n, k) ∈ rows) :
    selIndex n = k ∧ decode (.m6 (makeModeWord m.bits n)) = i ∧
      ∀ s : State, exec i s = .next (consumeButton (selectedEffect m n s)) := by
  obtain ⟨hword, hsel, hindex⟩ := hrows _ hmem
  exact ⟨hindex, hword, fun s => (congrArg (exec · s) hword).symm.trans (exec_of_isSelection hsel m s)⟩

/-- Settles O16: the rows have the effect `setDrawColor`. -/
theorem colorSetWritesDrawColor : Obligations.ColorSetWritesDrawColor := by
  intro i n k hmem
  obtain ⟨rfl, hword, hexec⟩ := selectionRow_runs (m := .color) (by decide) hmem
  exact ⟨hword, hexec⟩

/-- Settles O17: the rows have the effect `setDivisor`. -/
theorem speedSetWritesDivisor : Obligations.SpeedSetWritesDivisor := by
  intro i n k hmem
  obtain ⟨rfl, hword, hexec⟩ := selectionRow_runs (m := .speed) (by decide) hmem
  exact ⟨hword, hexec⟩

/-- Settles O20: the rows have the effect `fillOnce`, whose buffer is that of a `fill`. -/
theorem fillDoFillsOnce : Obligations.FillDoFillsOnce := by
  intro i n k hmem
  obtain ⟨rfl, hword, hexec⟩ := selectionRow_runs (m := .fill) (by decide) hmem
  exact ⟨hword, fun s => ⟨(fillOnce n s).fb, hexec s, fill_holdsEverywhere _ s⟩⟩

/-! ### The tools that need no point -/

/-- R137: a tool's word runs the instruction its nibble decodes to, with the effect that `drawTool` states. -/
theorem tool_word_runs (h : decodeDrawSel n = i) :
    decode (.m6 (makeModeWord 0b10#2 n)) = i ∧ ∀ s : State, exec i s = .next (consumeButton (drawTool n s)) :=
  ⟨(decode_makeModeWord .draw n).trans h, fun s => h ▸ exec_decodeDrawSel n s⟩

/-- R47: every cell of a painted buffer holds the pattern's colour there. -/
theorem paint_holdsEverywhere (pat : Pattern) (s : State) :
    holdsEverywhere s.cfg (pat.colorAt s.cfg.width) (paint pat s).fb :=
  ⟨wf_paint, fun _ _ hx hy => read_paint (inBounds_natCast hx hy)⟩

/-- Settles O18: the four `NONE` words select nothing, and the tools free and trace have no effect in P4. -/
theorem idleWordsConsumeTheButton : Obligations.IdleWordsConsumeTheButton := by
  intro i w hmem
  simp only [List.mem_cons, List.not_mem_nil, or_false, Prod.mk.injEq] at hmem
  rcases hmem with ⟨rfl, rfl⟩ | ⟨rfl, rfl⟩ | ⟨rfl, rfl⟩ | ⟨rfl, rfl⟩ | ⟨rfl, rfl⟩ | ⟨rfl, rfl⟩
  · exact ⟨decodeOfEncode .colorNone rfl, exec_of_selectsNothing rfl rfl⟩
  · exact ⟨decodeOfEncode .fillNone rfl, exec_of_selectsNothing rfl rfl⟩
  · exact ⟨decodeOfEncode .drawNone rfl, exec_of_selectsNothing rfl rfl⟩
  · exact ⟨decodeOfEncode .speedNone rfl, exec_of_selectsNothing rfl rfl⟩
  · exact tool_word_runs (n := 1#4) rfl
  · exact tool_word_runs (n := 2#4) rfl

/-- Settles O22: tool 8 is a `fill`. -/
theorem drawFillFillsWithDrawColor : Obligations.DrawFillFillsWithDrawColor := by
  obtain ⟨hword, hexec⟩ := tool_word_runs (n := 8#4) rfl
  exact ⟨hword, fun s => ⟨(fill s.drawColor s).fb, hexec s, fill_holdsEverywhere s.drawColor s⟩⟩

/-- Settles O23: tools 6 and 7 are each a `paint`. -/
theorem patternToolsPaint : Obligations.PatternToolsPaint := by
  obtain ⟨hword6, hexec6⟩ := tool_word_runs (n := 6#4) rfl
  obtain ⟨hword7, hexec7⟩ := tool_word_runs (n := 7#4) rfl
  exact ⟨hword6, hword7, fun s =>
    ⟨⟨(paint s.cfg.pattern6 s).fb, hexec6 s, paint_holdsEverywhere s.cfg.pattern6 s⟩,
      ⟨(paint s.cfg.pattern7 s).fb, hexec7 s, paint_holdsEverywhere s.cfg.pattern7 s⟩⟩⟩

end Sys2Proof.Proofs
end

section
/-! PROOFS. The shape tools of Draw mode (44_mode_semantics.md R140 to R142, R146, R147): a press is appended to the tool's
accumulator, and a full accumulator is drawn and emptied. -/

namespace Sys2Proof.Proofs

open Sys2Proof.Machine Sys2Proof.Laws

variable {s : State} {c : Color} {cells : List Point} {p q r : Point}

/-! ### Appending a point -/

/-- Settles O27, by which slot is the first `UNSET` one. -/
theorem appendFillsTheFirstUnsetSlot : Obligations.AppendFillsTheFirstUnsetSlot := by
  refine ⟨fun a p => ?_, fun a p => ?_⟩
  · rcases append2_cases a p with ⟨h0, e⟩ | ⟨h0, h1, e⟩ | ⟨h0, h1, e⟩
    · rw [e, if_pos h0]
    · rw [e, if_neg h0, if_pos h1]
    · rw [e, if_neg h0, if_neg h1]
  · rcases append3_cases a p with ⟨h0, e⟩ | ⟨h0, h1, e⟩ | ⟨h0, h1, h2, e⟩ | ⟨h0, h1, h2, e⟩
    · rw [e, if_pos h0]
    · rw [e, if_neg h0, if_pos h1]
    · rw [e, if_neg h0, if_neg h1, if_pos h2]
    · rw [e, if_neg h0, if_neg h1, if_neg h2]

theorem append2_first {a : Acc2} (h0 : a.slot0 = .unset) : a.append p = ⟨p, a.slot1⟩ := by
  rw [appendFillsTheFirstUnsetSlot.1, if_pos h0]

theorem append2_second {a : Acc2} (h0 : a.slot0 ≠ .unset) (h1 : a.slot1 = .unset) : a.append p = ⟨a.slot0, p⟩ := by
  rw [appendFillsTheFirstUnsetSlot.1, if_neg h0, if_pos h1]

theorem append3_first {a : Acc3} (h0 : a.slot0 = .unset) : a.append p = ⟨p, a.slot1, a.slot2⟩ := by
  rw [appendFillsTheFirstUnsetSlot.2, if_pos h0]

theorem append3_second {a : Acc3} (h0 : a.slot0 ≠ .unset) (h1 : a.slot1 = .unset) :
    a.append p = ⟨a.slot0, p, a.slot2⟩ := by
  rw [appendFillsTheFirstUnsetSlot.2, if_neg h0, if_pos h1]

theorem append3_third {a : Acc3} (h0 : a.slot0 ≠ .unset) (h1 : a.slot1 ≠ .unset) (h2 : a.slot2 = .unset) :
    a.append p = ⟨a.slot0, a.slot1, p⟩ := by
  rw [appendFillsTheFirstUnsetSlot.2, if_neg h0, if_neg h1, if_pos h2]

/-! ### Drawing a list of cells -/

/-- R181: draws leave every cell number that is not among theirs, in the buffer or not, as it was. -/
theorem read_foldl_drawCell_other {cfg : Config} {fb : Memory} {a : Nat}
    (h : ∀ p ∈ cells, inBounds cfg p.x p.y → cellNumber cfg p.x p.y ≠ a) :
    (cells.foldl (drawCell cfg c) fb).read a = fb.read a := by
  induction cells generalizing fb with
  | nil => rfl
  | cons p ps ih =>
    obtain ⟨hp, hps⟩ := List.forall_mem_cons.mp h
    rw [List.foldl_cons, ih hps, drawCell]
    split_ifs with hb
    · exact read_write_other (hp hb).symm
    · rfl

/-- R181: the buffer after a sequence of draws in one colour. -/
theorem drawCells_drawnOver (h : BufferOk s) : drawnOver s cells c (drawCells cells c s).fb :=
  ⟨wf_drawCells h, fun _ hp hb => (read_foldl_drawCell h hb).trans (if_pos hp), fun _ => read_foldl_drawCell_other⟩

/-! ### Capturing the cursor -/

/-- R148: a flag that is down stays down. -/
theorem consumeButton_of_not_pressed (h : s.btnFlag = false) : consumeButton s = s := by
  rw [consumeButton, ← h]

/-- R140: without a press the line tool has nothing to capture. -/
theorem captureLine_of_not_pressed (h : s.btnFlag = false) : captureLine s = s := if_neg (ne_true_of_eq_false h)

/-- R146, R147: a press that leaves the line open is only kept. -/
theorem captureLine_of_open {a : Acc2} (hb : s.btnFlag = true) (ha : s.accLine.append s.cur = a) (h : a.slot1 = .unset) :
    captureLine s = { s with accLine := a } := by
  subst ha
  exact (if_pos hb).trans (if_neg (not_not_intro h))

/-- R147: a press that completes the line draws it and empties the accumulator. -/
theorem captureLine_of_complete (hb : s.btnFlag = true) (ha : s.accLine.append s.cur = ⟨p, q⟩) (h : q ≠ .unset) :
    captureLine s = { drawCells (lineCells p q) s.drawColor s with accLine := .unset } := by
  rw [captureLine, if_pos hb, ha]
  exact if_pos h

/-- R141: without a press the rectangle tool has nothing to capture. -/
theorem captureRect_of_not_pressed (h : s.btnFlag = false) : captureRect s = s := if_neg (ne_true_of_eq_false h)

/-- R146, R147: a press that leaves the rectangle open is only kept. -/
theorem captureRect_of_open {a : Acc2} (hb : s.btnFlag = true) (ha : s.accRect.append s.cur = a) (h : a.slot1 = .unset) :
    captureRect s = { s with accRect := a } := by
  subst ha
  exact (if_pos hb).trans (if_neg (not_not_intro h))

/-- R147: a press that completes the rectangle draws it and empties the accumulator. -/
theorem captureRect_of_complete (hb : s.btnFlag = true) (ha : s.accRect.append s.cur = ⟨p, q⟩) (h : q ≠ .unset) :
    captureRect s = { drawCells (rectCells p q) s.drawColor s with accRect := .unset } := by
  rw [captureRect, if_pos hb, ha]
  exact if_pos h

/-- R142: without a press the triangle tool has nothing to capture. -/
theorem captureTri_of_not_pressed (h : s.btnFlag = false) : captureTri s = s := if_neg (ne_true_of_eq_false h)

/-- R146, R147: a press that leaves the triangle open is only kept. -/
theorem captureTri_of_open {a : Acc3} (hb : s.btnFlag = true) (ha : s.accTri.append s.cur = a) (h : a.slot2 = .unset) :
    captureTri s = { s with accTri := a } := by
  subst ha
  exact (if_pos hb).trans (if_neg (not_not_intro h))

/-- R147: a press that completes the triangle draws it and empties the accumulator. -/
theorem captureTri_of_complete (hb : s.btnFlag = true) (ha : s.accTri.append s.cur = ⟨p, q, r⟩) (h : r ≠ .unset) :
    captureTri s = { drawCells (triCells p q r) s.drawColor s with accTri := .unset } := by
  rw [captureTri, if_pos hb, ha]
  exact if_pos h

/-! ### The three tools -/

/-- R140, R148. -/
theorem exec_drawLine (s : State) : exec .drawLine s = .next (consumeButton (captureLine s)) := exec_decodeDrawSel 3#4 s

/-- R141, R148. -/
theorem exec_drawRect (s : State) : exec .drawRect s = .next (consumeButton (captureRect s)) := exec_decodeDrawSel 4#4 s

/-- R142, R148. -/
theorem exec_drawTri (s : State) : exec .drawTri s = .next (consumeButton (captureTri s)) := exec_decodeDrawSel 5#4 s

/-- Settles O24, by the press and the slot it fills; the cursor, in bounds, is no sentinel, so the second point completes
the line. -/
theorem lineTool : Obligations.LineTool := by
  intro s hcur hfb h1
  rw [exec_drawLine]
  refine ⟨fun hb => ?_, fun hb h0 => ?_, fun hb h0 => ⟨_, ?_, drawCells_drawnOver hfb⟩⟩
  · rw [captureLine_of_not_pressed hb, consumeButton_of_not_pressed hb]
  · rw [captureLine_of_open hb (append2_first h0) h1, h1]
    rfl
  · rw [captureLine_of_complete hb (append2_second h0 h1) (ne_unset_of_inBounds hcur)]
    rfl

/-- Settles O25, as the line tool. -/
theorem rectangleTool : Obligations.RectangleTool := by
  intro s hcur hfb h1
  rw [exec_drawRect]
  refine ⟨fun hb => ?_, fun hb h0 => ?_, fun hb h0 => ⟨_, ?_, drawCells_drawnOver hfb⟩⟩
  · rw [captureRect_of_not_pressed hb, consumeButton_of_not_pressed hb]
  · rw [captureRect_of_open hb (append2_first h0) h1, h1]
    rfl
  · rw [captureRect_of_complete hb (append2_second h0 h1) (ne_unset_of_inBounds hcur)]
    rfl

/-- Settles O26, by the press and the slot it fills; only the third point completes the triangle. -/
theorem triangleTool : Obligations.TriangleTool := by
  intro s hcur hfb h2
  rw [exec_drawTri]
  refine ⟨fun hb => ?_, fun hb h0 => ?_, fun hb h0 h1 => ?_, fun hb h0 h1 => ⟨_, ?_, drawCells_drawnOver hfb⟩⟩
  · rw [captureTri_of_not_pressed hb, consumeButton_of_not_pressed hb]
  · rw [captureTri_of_open hb (append3_first h0) h2, h2]
    rfl
  · rw [captureTri_of_open hb (append3_second h0 h1) h2, h2]
    rfl
  · rw [captureTri_of_complete hb (append3_third h0 h1 h2) (ne_unset_of_inBounds hcur)]
    rfl

end Sys2Proof.Proofs
end

section
/-! PROOFS. The movement tick (45_cursor_engine.md): where it takes the cursor (R161, R162, R170), and its whole effect in each
of the three branches, a tick that moves, one that counts and one that toggles the blink (R163 to R168). -/

namespace Sys2Proof.Proofs

open Sys2Proof.Machine Sys2Proof.Laws

variable {s t : State}

/-! ### One axis under any samples -/

/-- R162, R170: from a position in range no sequence of samples leaves the range. -/
theorem foldl_moveAxis_range {neutral threshold extent : Nat} (samples : List Nat) {k : Int} (h0 : 0 ≤ k)
    (h1 : k ≤ (extent : Int) - 1) :
    0 ≤ samples.foldl (fun c j => moveAxis j neutral threshold extent c) k ∧
      samples.foldl (fun c j => moveAxis j neutral threshold extent c) k ≤ (extent : Int) - 1 := by
  induction samples generalizing k with
  | nil => exact ⟨h0, h1⟩
  | cons j js ih =>
    obtain ⟨k0, k1⟩ := moveAxis_range (joy := j) (neutral := neutral) (threshold := threshold) h0 h1
    exact ih k0 k1

/-- R162: a sample above the neutral band moves the axis by one, short of the clamp. -/
theorem moveAxis_of_above {joy neutral threshold extent : Nat} {k : Int} (h : joy > neutral + threshold)
    (hk : k < (extent : Int) - 1) : moveAxis joy neutral threshold extent k = k + 1 := by
  rw [moveAxis, if_pos h]
  omega

/-- R162: a sample inside the neutral band does not move the axis. -/
theorem moveAxis_of_neutral {joy neutral threshold extent : Nat} {k : Int} (hhigh : ¬ joy > neutral + threshold)
    (hlow : ¬ joy < neutral - threshold) : moveAxis joy neutral threshold extent k = k := by
  rw [moveAxis, if_neg hhigh, if_neg hlow]

/-- Settles O38: the reference constants put 2051 inside the band and 2960 above it. -/
theorem cursorRangeWithReferenceConstants : Obligations.CursorRangeWithReferenceConstants :=
  ⟨fun _ => moveAxis_of_neutral (by decide) (by decide), fun _ hk => moveAxis_of_above (by decide) hk,
    fun samples _ h0 h1 => foldl_moveAxis_range samples h0 h1, fun samples _ h0 h1 => foldl_moveAxis_range samples h0 h1⟩

/-! ### Steps T1 to T3 -/

/-- R163: the buffer after T3. -/
def tracedBuffer (s : State) : Memory :=
  if traceActive s then drawCell s.cfg s.drawColor s.fb (moveCursor s).cur else s.fb

/-- R161 to R163: T1 to T3 write the two positions and the buffer. -/
theorem afterTrace_eq (s : State) :
    afterTrace s = { s with prev := s.cur, cur := (moveCursor s).cur, fb := tracedBuffer s } := by
  rw [afterTrace, traceDraw_eq]
  rfl

/-- R169: the branch is decided by whether T2 moves the cursor. -/
theorem cursorMoved_afterTrace (s : State) : cursorMoved (afterTrace s) ↔ (moveCursor s).cur ≠ s.cur := by
  rw [afterTrace_eq, cursorMoved, ne_eq (moveCursor s).cur, Point.mk.injEq, not_and_or]

/-- R163: the draw of T3 keeps the canonical form. -/
theorem wf_tracedBuffer (h : BufferOk s) : (tracedBuffer s).wf (cellCount s.cfg) = true := by
  unfold tracedBuffer
  split_ifs
  · exact wf_drawCell h
  · exact h

/-- R163: the cursor's cell after T3. -/
theorem read_tracedBuffer (hcur : pointInBounds s.cfg s.cur) (h : BufferOk s) :
    (tracedBuffer s).read (cellNumber s.cfg (moveCursor s).cur.x (moveCursor s).cur.y) =
      if traceActive s then s.drawColor else s.fb.read (cellNumber s.cfg (moveCursor s).cur.x (moveCursor s).cur.y) := by
  unfold tracedBuffer
  split_ifs
  · exact (read_drawCell h (moveCursor_inBounds hcur)).trans (if_pos rfl)
  · rfl

/-- R163: T3 leaves every other cell number as it was. -/
theorem read_tracedBuffer_other {a : Nat}
    (ha : a ≠ cellNumber s.cfg (moveCursor s).cur.x (moveCursor s).cur.y) : (tracedBuffer s).read a = s.fb.read a := by
  unfold tracedBuffer drawCell
  split_ifs
  · exact read_write_other ha
  · rfl
  · rfl

/-! ### The three branches of a tick -/

/-- R160: after T1 to T3 a tick takes the moving or the stationary branch. -/
theorem tick_eq (s : State) : tick s =
    if cursorMoved (afterTrace s) then vacateAndRemember (afterTrace s) else stationary (afterTrace s) := rfl

/-- R160: with the cursor in bounds a tick completes. -/
theorem tick_of_inBounds (h : pointInBounds s.cfg s.cur) : ∃ t, tick s = some t := by
  have hu : CursorOk (afterTrace s) := by
    rw [afterTrace_eq]
    exact ⟨moveCursor_inBounds h, h⟩
  rw [tick_eq]
  split_ifs
  · exact vacateAndRemember_of_cursorOk hu
  · exact stationary_of_cursorOk hu

/-- R161, R162: the two positions after a tick, in every branch. -/
theorem tick_positions (h : tick s = some t) : t.prev = s.cur ∧ t.cur = (moveCursor s).cur := by
  rcases tick_cases h with ⟨-, -, -, rfl⟩ | ⟨-, -, rfl⟩ | ⟨-, -, -, rfl⟩
  all_goals rw [afterTrace_eq]; exact ⟨rfl, rfl⟩

/-- R43: where T2 moves the cursor, the old and the new cell have different numbers. -/
theorem cellNumber_moveCursor_ne (h : pointInBounds s.cfg s.cur) (hm : (moveCursor s).cur ≠ s.cur) :
    cellNumber s.cfg (moveCursor s).cur.x (moveCursor s).cur.y ≠ cellNumber s.cfg s.cur.x s.cur.y := by
  intro e
  obtain ⟨hx, hy⟩ := cellNumber_inj (moveCursor_inBounds h) h e
  exact hm (congrArg₂ Point.mk hx hy)

/-- R167, R168: a tick that moves the cursor. -/
theorem tick_of_moved (h : pointInBounds s.cfg s.cur) (hfb : BufferOk s) (hm : (moveCursor s).cur ≠ s.cur) :
    tick s = some { s with
      prev := s.cur
      cur := (moveCursor s).cur
      prevColor := if traceActive s then s.drawColor
        else s.fb.read (cellNumber s.cfg (moveCursor s).cur.x (moveCursor s).cur.y)
      fb := (tracedBuffer s).write (cellNumber s.cfg s.cur.x s.cur.y) s.prevColor } := by
  obtain ⟨t, ht⟩ := tick_of_inBounds h
  have hmoved := (cursorMoved_afterTrace s).mpr hm
  rcases tick_cases ht with ⟨-, -, -, e⟩ | ⟨hstay, -⟩ | ⟨hstay, -⟩
  · rw [ht, e, afterTrace_eq, read_write_other (cellNumber_moveCursor_ne h hm), read_tracedBuffer h hfb]
  · exact absurd hmoved hstay
  · exact absurd hmoved hstay

/-- R164: a stationary tick below the threshold. -/
theorem tick_of_counts (h : pointInBounds s.cfg s.cur) (hm : (moveCursor s).cur = s.cur)
    (hcnt : s.blinkCnt + 1 ≠ s.cfg.blinkThreshold) :
    tick s = some { s with prev := s.cur, blinkCnt := s.blinkCnt + 1, fb := tracedBuffer s } := by
  obtain ⟨t, ht⟩ := tick_of_inBounds h
  rcases tick_cases ht with ⟨hmoved, -⟩ | ⟨-, -, e⟩ | ⟨-, hthr, -⟩
  · exact absurd hm ((cursorMoved_afterTrace s).mp hmoved)
  · rw [ht, e, afterTrace_eq, hm]
  · exact absurd hthr hcnt

/-- R164 to R166: a stationary tick at the threshold. -/
theorem tick_of_toggles (h : pointInBounds s.cfg s.cur) (hm : (moveCursor s).cur = s.cur)
    (hcnt : s.blinkCnt + 1 = s.cfg.blinkThreshold) :
    tick s = some { s with
      prev := s.cur
      blinkCnt := 0
      blinkOn := !s.blinkOn
      btnFlag := s.btnFlag || (s.button && !s.btnPrev)
      btnPrev := s.button
      trace := .btn s.button :: s.trace
      fb := (tracedBuffer s).write (cellNumber s.cfg s.cur.x s.cur.y)
        (if s.blinkOn then s.prevColor else s.cfg.highlight) } := by
  obtain ⟨t, ht⟩ := tick_of_inBounds h
  rcases tick_cases ht with ⟨hmoved, -⟩ | ⟨-, hbelow, -⟩ | ⟨-, -, -, e⟩
  · exact absurd hm ((cursorMoved_afterTrace s).mp hmoved)
  · exact absurd hcnt hbelow
  · rw [ht, e, afterTrace_eq, hm]

/-! ### The step that ticks -/

/-- R86: the gate's last step is the tick, from the state without its schedule's first entry, and goes on to P6. -/
theorem step_tick (hmain : mainNext s) (hseq : s.seq = .p5 .tick) (h : tick { s with moves := s.moves.tail } = some t) :
    step s = .next { t with seq := .p6 .outputOff } := by
  rw [step_main hmain, mainStep_p5 (s := { s with moves := s.moves.tail }) hseq, gateStep, h]

/-- Settles O34: every tick has the positions of `tick_positions` and the frame `tick_frame`. -/
theorem tickMovesTheCursor : Obligations.TickMovesTheCursor := by
  intro s hmain hseq hcur
  obtain ⟨t, ht⟩ := tick_of_inBounds (s := { s with moves := s.moves.tail }) hcur
  obtain ⟨hprev, hnew⟩ := tick_positions ht
  refine ⟨_, step_tick hmain hseq ht, hprev, congrArg Point.x hnew, congrArg Point.y hnew, ?_, ?_⟩
  · exact hnew ▸ moveCursor_inBounds hcur
  · exact congrArg (fun u : State => { u with seq := .p6 .outputOff }) (tick_frame ht)

/-- Settles O35: the vacated cell is written last and is not the new one. -/
theorem movingTick : Obligations.MovingTick := by
  intro s hmain hseq hcur hfb hm
  have hne := cellNumber_moveCursor_ne hcur hm
  have hwf := wf_tracedBuffer hfb
  refine ⟨_, step_tick hmain hseq (tick_of_moved (s := { s with moves := s.moves.tail }) hcur hfb hm),
    wf_write hwf (cellNumber_lt hcur), read_write_self hwf, ?_, fun a hold hnew => ?_⟩
  · exact (read_write_other hne).trans (read_tracedBuffer hcur hfb)
  · exact (read_write_other hold).trans (read_tracedBuffer_other hnew)

/-- Settles O36: the buffer is that of T3. -/
theorem stationaryTickCounts : Obligations.StationaryTickCounts := by
  intro s hmain hseq hcur hfb hm hcnt
  have hcell := read_tracedBuffer hcur hfb
  have hother := fun a => read_tracedBuffer_other (s := s) (a := a)
  rw [hm] at hcell hother
  exact ⟨_, step_tick hmain hseq (tick_of_counts (s := { s with moves := s.moves.tail }) hcur hm hcnt),
    wf_tracedBuffer hfb, hcell, hother⟩

/-- Settles O37: the toggle writes the cell that T3 may have drawn. -/
theorem stationaryTickToggles : Obligations.StationaryTickToggles := by
  intro s hmain hseq hcur hfb hm hcnt
  have hwf := wf_tracedBuffer hfb
  have hother := fun a => read_tracedBuffer_other (s := s) (a := a)
  rw [hm] at hother
  exact ⟨_, step_tick hmain hseq (tick_of_toggles (s := { s with moves := s.moves.tail }) hcur hm hcnt),
    wf_write hwf (cellNumber_lt hcur), read_write_self hwf, fun a ha => (read_write_other ha).trans (hother a ha)⟩

end Sys2Proof.Proofs
end

section
/-! PROOFS. The shapes cell by cell (46_shape_render.md R182 to R187): the rectangle's loops visit the perimeter, and the
line's loop visits in its k-th round one point, given in closed form, from which the facts of R185 are read off. -/

namespace Sys2Proof.Proofs

open Sys2Proof.Machine

/-! ### The rectangle -/

theorem mem_intRange {lo hi v : Int} : v ∈ intRange lo hi ↔ lo ≤ v ∧ v ≤ hi := by
  simp only [intRange, List.mem_map, List.mem_range, Int.ofNat_eq_natCast]
  constructor
  · rintro ⟨k, hk, rfl⟩
    omega
  · rintro ⟨hlo, hhi⟩
    exact ⟨(v - lo).toNat, by omega, by omega⟩

/-- R182: the first loop draws the two vertical sides, the second the two horizontal ones. -/
theorem mem_rectCells {p q c : Point} : c ∈ rectCells p q ↔
    (min p.y q.y ≤ c.y ∧ c.y ≤ max p.y q.y) ∧ (c.x = min p.x q.x ∨ c.x = max p.x q.x) ∨
    (min p.x q.x ≤ c.x ∧ c.x ≤ max p.x q.x) ∧ (c.y = min p.y q.y ∨ c.y = max p.y q.y) := by
  obtain ⟨x, y⟩ := c
  simp only [rectCells, List.mem_append, List.mem_flatMap, mem_intRange, List.mem_cons, List.not_mem_nil, or_false,
    Point.mk.injEq]
  constructor
  · rintro (⟨v, hv, ⟨rfl, rfl⟩ | ⟨rfl, rfl⟩⟩ | ⟨v, hv, ⟨rfl, rfl⟩ | ⟨rfl, rfl⟩⟩)
    · exact .inl ⟨hv, .inl rfl⟩
    · exact .inl ⟨hv, .inr rfl⟩
    · exact .inr ⟨hv, .inl rfl⟩
    · exact .inr ⟨hv, .inr rfl⟩
  · rintro (⟨hv, h⟩ | ⟨hv, h⟩)
    · exact .inl ⟨y, hv, h.imp (⟨·, rfl⟩) (⟨·, rfl⟩)⟩
    · exact .inr ⟨x, hv, h.imp (⟨rfl, ·⟩) (⟨rfl, ·⟩)⟩

/-- Settles O29: a side of the box is in the box, and the sides are what the two loops visit. -/
theorem rectangleCellsAreThePerimeter : Obligations.RectangleCellsAreThePerimeter := by
  intro p q c
  rw [mem_rectCells]
  constructor
  · rintro (⟨hy, hx⟩ | ⟨hx, hy⟩) <;> exact ⟨by omega, by omega⟩
  · rintro ⟨⟨hx0, hx1, hy0, hy1⟩, hx | hx | hy | hy⟩
    · exact .inl ⟨⟨hy0, hy1⟩, .inl hx⟩
    · exact .inl ⟨⟨hy0, hy1⟩, .inr hx⟩
    · exact .inr ⟨⟨hx0, hx1⟩, .inl hy⟩
    · exact .inr ⟨⟨hx0, hx1⟩, .inr hy⟩

/-! ### How far a line has come along one axis -/

/-- The cells by which a line of `m` rounds has moved, after `k` of them, along an axis on which it moves `d` cells in all:
`d * k / m` rounded to the nearest integer, a half upwards. -/
def advance (d m k : Nat) : Nat := (2 * d * k + m) / (2 * m)

section
variable {d e m k : Nat}

/-- `advance d m k` is the `n` with `n - 1/2 ≤ d * k / m < n + 1/2`. -/
theorem advance_eq_iff (hm : 0 < m) (n : Nat) :
    advance d m k = n ↔ 2 * m * n ≤ 2 * d * k + m ∧ 2 * d * k < 2 * m * n + m := by
  rw [advance, Nat.div_eq_iff (by omega), Nat.mul_comm n]
  omega

theorem advance_rounds (hm : 0 < m) :
    2 * m * advance d m k ≤ 2 * d * k + m ∧ 2 * d * k < 2 * m * advance d m k + m :=
  (advance_eq_iff hm _).mp rfl

theorem advance_at_start : advance d m 0 = 0 := by
  rcases Nat.eq_zero_or_pos m with rfl | hm
  · exact Nat.div_zero _
  · exact (advance_eq_iff hm 0).mpr (by omega)

theorem advance_at_end (h : d ≤ m) : advance d m m = d := by
  rcases Nat.eq_zero_or_pos m with rfl | hm
  · rw [advance_at_start, Nat.le_zero.mp h]
  · exact (advance_eq_iff hm d).mpr (by rw [Nat.mul_right_comm]; omega)

/-- R185 (e): on the longer axis every round moves one cell. -/
theorem advance_longer (h : k ≤ m) : advance m m k = k := by
  rcases Nat.eq_zero_or_pos m with rfl | hm
  · rw [Nat.le_zero.mp h, advance_at_start]
  · exact (advance_eq_iff hm k).mpr (by omega)

theorem advance_le (hd : d ≤ m) (hk : k ≤ m) : advance d m k ≤ d :=
  calc advance d m k ≤ advance d m m := Nat.div_le_div_right (by gcongr)
    _ = d := advance_at_end hd

/-- One more round moves one more cell exactly when the next midpoint `advance d m k + 1/2` is reached. -/
theorem advance_succ (hm : 0 < m) (hd : d ≤ m) : advance d m (k + 1) =
    if m * (2 * advance d m k + 1) ≤ 2 * d * (k + 1) then advance d m k + 1 else advance d m k := by
  obtain ⟨hlow, hhigh⟩ := advance_rounds (d := d) (k := k) hm
  split_ifs with h
  · exact (advance_eq_iff hm _).mpr ⟨by linarith, by linarith⟩
  · exact (advance_eq_iff hm _).mpr ⟨by linarith, by linarith⟩

/-- R184: the test by which the loop decides on a step along one axis, of `d` cells, looks at how far it has come along the
other, of `e` cells. Either axis may be the longer: along the longer one the test always succeeds. -/
theorem step_test_iff (hm : 0 < m) (hmax : max d e = m) (hk : k < m) :
    e * (2 * advance d m k + 1) ≤ 2 * d * (advance e m k + 1) ↔ m * (2 * advance d m k + 1) ≤ 2 * d * (k + 1) := by
  rcases max_choice d e with h | h <;> rw [h] at hmax <;> subst hmax
  · rw [advance_longer hk.le]
    have hed : e * (2 * k + 1) ≤ 2 * e * k + d := by linarith [le_of_max_le_right h.le]
    have hround := (advance_rounds (d := e) (k := k) hm).2
    exact iff_of_true (by linarith) (by linarith)
  · rw [advance_longer hk.le]

end

/-! ### One coordinate of a line -/

/-- One coordinate, after `k` of `m` rounds, of a line that leads from `a` to `b` on its axis. -/
def axisCell (a b : Int) (m k : Nat) : Int := a + (b - a).sign * advance (b - a).natAbs m k

section
variable {a b : Int} {m k : Nat}

theorem axisCell_start : axisCell a b m 0 = a := by rw [axisCell, advance_at_start]; simp

theorem axisCell_end (h : (b - a).natAbs ≤ m) : axisCell a b m m = b := by
  rw [axisCell, advance_at_end h, Int.sign_mul_natAbs]
  omega

/-- R185 (e): along the longer axis, and along an axis on which nothing moves, the steps are unit steps. -/
theorem axisCell_exact (hk : k ≤ m) (h : (b - a).natAbs = m ∨ b = a) : axisCell a b m k = a + k * (b - a).sign := by
  rcases h with h | rfl
  · rw [axisCell, h, advance_longer hk, Int.mul_comm]
  · simp [axisCell]

theorem axisCell_longer_inj {l : Nat} (hk : k ≤ m) (hl : l ≤ m) (hd : (b - a).natAbs = m)
    (h : axisCell a b m k = axisCell a b m l) : k = l := by
  rw [axisCell_exact hk (.inl hd), axisCell_exact hl (.inl hd)] at h
  rcases eq_or_ne (b - a) 0 with h0 | h0
  · omega
  · have hsign : (b - a).sign ≠ 0 := mt Int.sign_eq_zero_iff_zero.mp h0
    exact_mod_cast mul_right_cancel₀ hsign (add_left_cancel h)

/-- R185 (d), for one coordinate. -/
theorem axisCell_between (hd : (b - a).natAbs ≤ m) (hk : k ≤ m) :
    min a b ≤ axisCell a b m k ∧ axisCell a b m k ≤ max a b := by
  have hle := advance_le hd hk
  rw [axisCell]
  rcases lt_trichotomy a b with h | rfl | h
  · rw [Int.sign_eq_one_of_pos (by omega)]
    omega
  · simp
  · rw [Int.sign_eq_neg_one_of_neg (by omega)]
    omega

/-- R184: the step to the next coordinate has the loop's direction; the test never succeeds where nothing moves. -/
theorem axisCell_succ (hm : 0 < m) (hd : (b - a).natAbs ≤ m) : axisCell a b m (k + 1) =
    if m * (2 * advance (b - a).natAbs m k + 1) ≤ 2 * (b - a).natAbs * (k + 1)
    then axisCell a b m k + (if a < b then 1 else -1) else axisCell a b m k := by
  rw [axisCell, axisCell, advance_succ hm hd]
  rcases lt_trichotomy a b with h | rfl | h
  · rw [Int.sign_eq_one_of_pos (by omega), if_pos h]
    split_ifs <;> omega
  · simp [hm.ne']
  · rw [Int.sign_eq_neg_one_of_neg (by omega), if_neg h.not_gt]
    split_ifs <;> omega

/-- R185 (c), for one coordinate. -/
theorem axisCell_succ_sub (hm : 0 < m) (hd : (b - a).natAbs ≤ m) :
    (axisCell a b m (k + 1) - axisCell a b m k).natAbs ≤ 1 := by
  rw [axisCell_succ hm hd]
  split_ifs <;> omega

/-- R185 (c), for the coordinate of the longer axis. -/
theorem axisCell_succ_sub_longer (hk : k < m) (hd : (b - a).natAbs = m) :
    (axisCell a b m (k + 1) - axisCell a b m k).natAbs = 1 := by
  rw [axisCell_exact hk (.inl hd), axisCell_exact hk.le (.inl hd), Nat.cast_succ, add_one_mul]
  have hsign := Int.natAbs_sign_of_ne_zero (z := b - a) (by omega)
  omega

end

/-! ### The line's loop -/

/-- R185 (b): the steps of a line, one for each step along the longer axis. -/
def lineRounds (p q : Point) : Nat := max (q.x - p.x).natAbs (q.y - p.y).natAbs

/-- The point that the loop of R184 visits after `k` rounds. -/
def linePoint (p q : Point) (k : Nat) : Point :=
  ⟨axisCell p.x q.x (lineRounds p q) k, axisCell p.y q.y (lineRounds p q) k⟩

/-- The error term of R184 after `k` rounds: each step along an axis has added the other axis' difference once. -/
def lineError (p q : Point) (k : Nat) : Int :=
  (q.x - p.x).natAbs * (advance (q.y - p.y).natAbs (lineRounds p q) k + 1 : Int) -
    (q.y - p.y).natAbs * (advance (q.x - p.x).natAbs (lineRounds p q) k + 1 : Int)

section
variable {p q : Point} {k : Nat}

theorem natAbs_x_le_lineRounds : (q.x - p.x).natAbs ≤ lineRounds p q := le_max_left ..

theorem natAbs_y_le_lineRounds : (q.y - p.y).natAbs ≤ lineRounds p q := le_max_right ..

/-- One of the two axes is the longer one. -/
theorem lineRounds_cases (p q : Point) :
    (q.x - p.x).natAbs = lineRounds p q ∨ (q.y - p.y).natAbs = lineRounds p q :=
  (max_choice _ _).imp Eq.symm Eq.symm

theorem linePoint_start : linePoint p q 0 = p := by rw [linePoint, axisCell_start, axisCell_start]

theorem linePoint_end : linePoint p q (lineRounds p q) = q := by
  rw [linePoint, axisCell_end natAbs_x_le_lineRounds, axisCell_end natAbs_y_le_lineRounds]

/-- R185 (b): no point is visited twice. -/
theorem linePoint_inj {l : Nat} (hk : k ≤ lineRounds p q) (hl : l ≤ lineRounds p q)
    (h : linePoint p q k = linePoint p q l) : k = l := by
  obtain ⟨hx, hy⟩ := Point.mk.inj h
  rcases lineRounds_cases p q with hd | hd
  · exact axisCell_longer_inj hk hl hd hx
  · exact axisCell_longer_inj hk hl hd hy

/-- R184: the test of a step along x in round `k`. -/
theorem x_test_iff (hk : k < lineRounds p q) :
    2 * lineError p q k ≥ -((q.y - p.y).natAbs : Int) ↔
      lineRounds p q * (2 * advance (q.x - p.x).natAbs (lineRounds p q) k + 1) ≤ 2 * (q.x - p.x).natAbs * (k + 1) := by
  rw [← step_test_iff (by omega) (show max _ (q.y - p.y).natAbs = lineRounds p q from rfl) hk, lineError]
  zify
  constructor <;> intro h <;> linarith

/-- R184: the test of a step along y in round `k`. -/
theorem y_test_iff (hk : k < lineRounds p q) :
    2 * lineError p q k ≤ (q.x - p.x).natAbs ↔
      lineRounds p q * (2 * advance (q.y - p.y).natAbs (lineRounds p q) k + 1) ≤ 2 * (q.y - p.y).natAbs * (k + 1) := by
  rw [← step_test_iff (by omega) (show max _ (q.x - p.x).natAbs = lineRounds p q from max_comm _ _) hk, lineError]
  zify
  constructor <;> intro h <;> linarith

/-- R184: the error term is updated as the point is, once for each axis that steps. -/
theorem lineError_succ (hk : k < lineRounds p q) : lineError p q (k + 1) =
    (lineError p q k + if 2 * lineError p q k ≥ -((q.y - p.y).natAbs : Int) then -((q.y - p.y).natAbs : Int) else 0) +
      if 2 * lineError p q k ≤ (q.x - p.x).natAbs then ((q.x - p.x).natAbs : Int) else 0 := by
  have hm : 0 < lineRounds p q := by omega
  simp only [x_test_iff hk, y_test_iff hk]
  rw [lineError, lineError, advance_succ hm natAbs_x_le_lineRounds, advance_succ hm natAbs_y_le_lineRounds]
  split_ifs <;> push_cast <;> ring

/-- R184: the loop, entered in round `k` with the rounds that then remain, visits the points of those rounds: it leaves by its
own exit in the last one, and not before. -/
theorem lineLoop_eq (n : Nat) (hn : k + n = lineRounds p q + 1) :
    lineLoop q (q.x - p.x).natAbs (-((q.y - p.y).natAbs : Int)) (if p.x < q.x then 1 else -1) (if p.y < q.y then 1 else -1)
      n (linePoint p q k).x (linePoint p q k).y (lineError p q k) = (List.range' k n).map (linePoint p q) := by
  induction n generalizing k with
  | zero => rfl
  | succ n ih =>
    rw [lineLoop, List.range'_succ, List.map_cons]
    congr 1
    by_cases hexit : linePoint p q k = q
    · have hlast : k = lineRounds p q :=
        linePoint_inj (by omega) le_rfl (hexit.trans linePoint_end.symm)
      obtain rfl : n = 0 := by omega
      rw [if_pos (by rw [hexit]; exact ⟨rfl, rfl⟩)]
      rfl
    · have hk : k < lineRounds p q := by
        refine lt_of_le_of_ne (by omega) fun h => hexit ?_
        rw [h, linePoint_end]
      have hm : 0 < lineRounds p q := by omega
      rw [if_neg fun h => hexit (congrArg₂ Point.mk h.1 h.2), ← ih (k := k + 1) (by omega), lineError_succ hk]
      simp only [linePoint, axisCell_succ hm natAbs_x_le_lineRounds, axisCell_succ hm natAbs_y_le_lineRounds,
        ← x_test_iff hk, ← y_test_iff hk]
      congr 1
      split_ifs <;> ring

/-- R184: the cells of a line in closed form. -/
theorem lineCells_eq (p q : Point) : lineCells p q = (List.range (lineRounds p q + 1)).map (linePoint p q) := by
  have h := lineLoop_eq (p := p) (q := q) (k := 0) (lineRounds p q + 1) (by omega)
  rw [linePoint_start, ← List.range_eq_range'] at h
  rw [← h, lineError, advance_at_start, advance_at_start]
  simp [lineCells, lineLength, lineRounds, Int.sub_eq_add_neg]

end

/-- Settles O30: the first and the last round visit the two ends, and every round a point of its own. -/
theorem lineEndsAndLength : Obligations.LineEndsAndLength := by
  intro p q
  rw [lineCells_eq]
  refine ⟨?_, ?_, ?_, ?_⟩
  · rw [List.range_succ_eq_map, List.map_cons, linePoint_start]
    rfl
  · rw [List.range_succ, List.map_append, List.map_singleton, linePoint_end, List.getLast?_concat]
  · rw [List.length_map, List.length_range]
    rfl
  · exact List.nodup_range.map_on fun k hk l hl =>
      linePoint_inj (Nat.le_of_lt_succ (List.mem_range.mp hk)) (Nat.le_of_lt_succ (List.mem_range.mp hl))

/-- Settles O31: each coordinate moves by at most one cell in a round, by one on the longer axis, and stays between its ends. -/
theorem lineIsConnectedInItsBox : Obligations.LineIsConnectedInItsBox := by
  intro p q
  rw [lineCells_eq]
  constructor
  · rw [List.isChain_map, List.isChain_range_succ]
    intro k hk
    have hm : 0 < lineRounds p q := by omega
    exact ⟨axisCell_succ_sub hm natAbs_x_le_lineRounds, axisCell_succ_sub hm natAbs_y_le_lineRounds,
      fun h => axisCell_succ_sub_longer hk (max_eq_left h).symm,
      fun h => axisCell_succ_sub_longer hk (max_eq_right h).symm⟩
  · intro c hc
    obtain ⟨k, hk, rfl⟩ := List.mem_map.mp hc
    have hk : k ≤ lineRounds p q := Nat.le_of_lt_succ (List.mem_range.mp hk)
    obtain ⟨hx0, hx1⟩ := axisCell_between natAbs_x_le_lineRounds hk
    obtain ⟨hy0, hy1⟩ := axisCell_between natAbs_y_le_lineRounds hk
    exact ⟨hx0, hx1, hy0, hy1⟩

/-- Settles O32: on such a line each axis is the longer one or does not move. -/
theorem straightLinesAreExact : Obligations.StraightLinesAreExact := by
  intro p q h
  have hx : (q.x - p.x).natAbs = lineRounds p q ∨ q.x = p.x := by rw [lineRounds]; omega
  have hy : (q.y - p.y).natAbs = lineRounds p q ∨ q.y = p.y := by rw [lineRounds]; omega
  rw [lineCells_eq]
  refine List.map_congr_left fun k hk => ?_
  have hk : k ≤ lineRounds p q := Nat.le_of_lt_succ (List.mem_range.mp hk)
  rw [linePoint, axisCell_exact hk hx, axisCell_exact hk hy]

/-- Settles O33: the loop of R184 run on the spec's six shapes. -/
theorem lineExamples : Obligations.LineExamples := by
  unfold Obligations.LineExamples
  decide

end Sys2Proof.Proofs
end

section
/-! PROOFS. The display driver's steps under any schedule (47_display_driver.md): every `CLK` of the trace stands between the
`BUS` of its column and a `CLR` (R207, R213), and the ports keep still outside their phases (R211, R107). -/

namespace Sys2Proof.Proofs

open Sys2Proof.Machine Sys2Proof.Laws

variable {s t : State} {e : Event}

/-! ### The discipline of a trace, event by event -/

/-- R213: a pulse has a `BUS` right before it, and right after it a `CLR`. -/
theorem clockNeighbours_iff {newer older : Event} : clockNeighbours newer older = true ↔
    (newer = .clk → ∃ u l, older = .bus u l) ∧ (older = .clk → newer = .clr) := by
  unfold clockNeighbours
  rw [Bool.and_eq_true]
  refine and_congr ?_ ?_
  · split <;> simp_all
  · split <;> simp_all

/-- R213: an event keeps the discipline when a pulse comes right after a `BUS` alone, and right after a pulse a `CLR` alone. -/
theorem clockDiscipline_cons {es : List Event} (h : clockDiscipline es = true)
    (hclk : e = .clk → ∃ u l, es.head? = some (.bus u l)) (hclr : es.head? = some .clk → e = .clr) :
    clockDiscipline (e :: es) = true := by
  cases es with
  | nil => simpa [clockDiscipline] using hclk
  | cons older es =>
    have hnext : clockNeighbours e older = true := clockNeighbours_iff.mpr ⟨by simpa using hclk, by simpa using hclr⟩
    rw [clockDiscipline, hnext, h]
    rfl

/-- Where no pulse is due or done, a trace left alone is as good as it was. -/
theorem traceOk_of_trace_eq (h : TraceOk s) (hs : s.seq ≠ .p6 .clearBus) (htr : t.trace = s.trace) (hrest : ¬ busHeld t) :
    TraceOk t where
  discipline := htr ▸ h.discipline
  pulseNext hp := absurd (.inl hp) hrest
  clearNext := by
    have hno : s.trace.head? ≠ some .clk := mt h.clearNext.mpr hs
    rw [htr]
    exact ⟨fun hc => absurd (.inr hc) hrest, fun hk => absurd hk hno⟩

/-- R213: one event more. What the position says of the newest event has to fit the event emitted: `CLK` is emitted at `pulse`
and leads to `clearBus`, where `CLR` is emitted, and only a `BUS` of the colours on the bus leads to `pulse`. -/
theorem traceOk_of_emitted (h : TraceOk s) (htr : t.trace = e :: s.trace) (hclk : e = .clk → s.seq = .p6 .pulse)
    (hclr : s.seq = .p6 .clearBus → e = .clr) (hpulse : t.seq = .p6 .pulse → e = .bus t.busUpper t.busLower)
    (hclear : t.seq = .p6 .clearBus ↔ e = .clk) : TraceOk t where
  discipline := by
    rw [htr]
    exact clockDiscipline_cons h.discipline (fun he => ⟨_, _, h.pulseNext (hclk he)⟩) (fun hk => hclr (h.clearNext.mpr hk))
  pulseNext hp := by rw [htr, hpulse hp]; rfl
  clearNext := by rw [htr, hclear]; simp

/-! ### The trace before the pass -/

/-- R236: what a step outside P6 may do to the trace: leave it, or add one event that is no clock pulse. -/
def addsNoPulse (old new : List Event) : Prop := new = old ∨ ∃ e, e ≠ .clk ∧ new = e :: old

theorem addsNoPulse_cons {es : List Event} (he : e ≠ .clk) : addsNoPulse es (e :: es) := .inr ⟨e, he, rfl⟩

/-- R94: P1 emits the start of a conversion at most. -/
theorem drainStep_addsNoPulse (d : DrainPos) (s : State) : addsNoPulse s.trace (drainStep d s).trace := by
  cases d with
  | test =>
    by_cases hf : sampleFresh s.axisI s = true
    · rw [drainStep_test_fresh hf]; exact .inl rfl
    · rw [drainStep_test_not_fresh hf]
      rcases drainNext_cases s with ⟨-, e⟩ | ⟨-, e⟩ <;> exact .inl (by rw [e])
  | clear => exact .inl rfl
  | read => exact .inl rfl
  | start =>
    rcases drainNext_cases (startConversion s.axisI s) with ⟨-, e⟩ | ⟨-, e⟩
    all_goals rw [drainStep, e]; exact addsNoPulse_cons (by simp)

/-- R107: P2 emits the drive, the read and the release of a column. -/
theorem scanStep_addsNoPulse (q : ScanPos) (s : State) : addsNoPulse s.trace (scanStep q s).trace := by
  cases q with
  | drive => exact addsNoPulse_cons (by simp)
  | sense => exact addsNoPulse_cons (by simp)
  | rows =>
    obtain ⟨hit, -, ⟨r, -, e⟩ | ⟨-, e⟩⟩ := scanRow_cases s
    all_goals rw [scanStep, e]; exact .inl rfl
  | release =>
    rcases scanRelease_cases s with ⟨r0, -, e⟩ | ⟨-, c, -, e⟩ | ⟨-, -, e⟩
    all_goals rw [scanStep, e]; exact addsNoPulse_cons (by simp)

/-- R166: P5 emits the button's sample at most. -/
theorem gateStep_addsNoPulse {g : GatePos} (h : gateStep g s = .next t) : addsNoPulse s.trace t.trace := by
  rcases gateStep_eq_next h with ⟨-, -, rfl⟩ | ⟨-, -, rfl⟩ | ⟨-, rfl⟩ | ⟨-, u, hu, rfl⟩
  · exact .inl rfl
  · exact .inl rfl
  · exact .inl rfl
  · have hafter : (afterTrace s).trace = s.trace := by unfold afterTrace; rw [traceDraw_eq]; rfl
    rcases tick_cases hu with ⟨-, -, -, rfl⟩ | ⟨-, -, rfl⟩ | ⟨-, -, -, rfl⟩
    · exact .inl hafter
    · exact .inl hafter
    · exact addsNoPulse_cons (by simp)

/-- R206, R236: no step of P1 to P5 pulses the clock. -/
theorem mainStep_addsNoPulse (h : mainStep s = .next t) (hp : s.seq.phase ≠ .p6) : addsNoPulse s.trace t.trace := by
  rcases mainStep_cases h with ⟨d, -, rfl⟩ | ⟨q, -, rfl⟩ | ⟨-, rfl⟩ | ⟨-, rfl⟩ | ⟨g, -, hg⟩ | ⟨r, hs, -⟩
  · exact drainStep_addsNoPulse d s
  · exact scanStep_addsNoPulse q s
  · exact .inl (by rw [keyEffect_frame])
  · exact .inl (by rw [modeEffect_frame])
  · exact gateStep_addsNoPulse hg
  · exact absurd (by rw [hs]; rfl) hp

/-- R80: the step into P6 leads to the start of the pass. -/
theorem mainStep_not_busHeld (h : mainStep s = .next t) (hp : s.seq.phase ≠ .p6) : ¬ busHeld t := by
  intro hheld
  rcases (mainStep_advances h).position with hpos | hpos
  · exact hp (hpos ▸ by rcases hheld with hs | hs <;> rw [hs] <;> rfl)
  · cases hq : s.seq.phase.after <;> simp [busHeld, hpos, hq, phaseStart] at hheld

/-! ### The discipline over one step -/

theorem traceOk_beforePass (hk : TraceOk s) (h : mainStep s = .next t) (hp : s.seq.phase ≠ .p6) : TraceOk t := by
  have hrest := mainStep_not_busHeld h hp
  have hne : s.seq ≠ .p6 .clearBus := fun hs => hp (by rw [hs]; rfl)
  rcases mainStep_addsNoPulse h hp with htr | ⟨e, he, htr⟩
  · exact traceOk_of_trace_eq hk hne htr hrest
  · exact traceOk_of_emitted hk htr (fun hc => absurd hc he) (fun hc => absurd hc hne) (fun hc => absurd (.inl hc) hrest)
      ⟨fun hc => absurd (.inr hc) hrest, fun hc => absurd hc he⟩

/-- R200, R213: in the body of a column the events are `BUS`, `CLK`, `CLR`, and around it none is a `CLK`. -/
theorem traceOk_refreshStep {r : PassPos} (hk : TraceOk s) (hs : s.seq = .p6 r) (h : refreshStep r s = .next t) : TraceOk t := by
  cases r with
  | setBus =>
    obtain ⟨-, -, rfl⟩ := presentColumn_eq_next.mp h
    exact traceOk_of_emitted hk rfl (by simp) (by simp [hs]) (fun _ => rfl) (by simp)
  | clearBus =>
    obtain rfl := Host.Outcome.next.inj h
    rcases clearColumn_cases s with ⟨-, e⟩ | ⟨-, e⟩ <;> rw [e]
    all_goals exact traceOk_of_emitted hk rfl (by simp) (fun _ => rfl) (by simp) (by simp)
  | address =>
    obtain rfl := Host.Outcome.next.inj h
    rcases addressPair_cases s with ⟨-, e⟩ | ⟨-, e⟩ <;> rw [e]
    all_goals exact traceOk_of_emitted hk rfl (by simp) (by simp [hs]) (by simp) (by simp)
  | pulse =>
    obtain rfl := Host.Outcome.next.inj h
    exact traceOk_of_emitted hk rfl (fun _ => hs) (by simp [hs]) (by simp) (by simp)
  | outputOff | latchOff | latchOn | outputAfter =>
    obtain rfl := Host.Outcome.next.inj h
    exact traceOk_of_emitted hk rfl (by simp) (by simp [hs]) (by simp) (by simp)

/-- The discipline reads the trace, the position and the colours on the bus, which no other agent writes. -/
theorem traceOk_envStep (m : EnvMove) (hk : TraceOk s) : TraceOk (envStep m s) := by
  rw [envStep_frame]
  exact { hk with }

/-- Settles O58: by who steps, and for the main sequencer by whether it stands in the pass. -/
theorem everyStepKeepsTheTraceDiscipline : Obligations.EveryStepKeepsTheTraceDiscipline := by
  intro s t _ hk h
  obtain ⟨u, ms, rfl, ⟨-, h⟩ | ⟨-, m, rfl⟩⟩ := step_cases h
  · have hu : TraceOk u := { hk with }
    by_cases hp : u.seq.phase = .p6
    · obtain ⟨r, hs⟩ := phase_eq_p6.mp hp
      rw [mainStep_p6 hs] at h
      exact traceOk_refreshStep hu hs h
    · exact traceOk_beforePass hu h hp
  · exact traceOk_envStep m (s := u) { hk with }

/-- Settles O50: the contrapositive of what O54 says of the writers of the ports. -/
theorem portsChangeOnlyInTheirPhase : Obligations.PortsChangeOnlyInTheirPhase := by
  intro s t h
  obtain ⟨-, -, -, -, -, -, -, -, -, -, -, -, hscan, hpass, -⟩ := eachRegisterHasItsWriter s t h
  constructor
  · intro hp
    have hkept := mt (fun hw => (hpass hw).2) hp
    simp only [not_or, not_not] at hkept
    obtain ⟨-, -, hports⟩ := hkept
    exact hports
  · intro hp
    have hkept := mt (fun hw => (hscan hw).2) hp
    simp only [not_or, not_not] at hkept
    obtain ⟨-, -, -, -, hcolumns⟩ := hkept
    exact hcolumns

end Sys2Proof.Proofs
end

section
/-! PROOFS. One refresh pass run with no step of another agent between (47_display_driver.md R200 to R214): the body of a column,
run for each column of a pair, and the pair run for each pair; then what R200's events contain. -/

namespace Sys2Proof.Proofs

open Sys2Proof.Machine Sys2Proof.Laws

variable {s t : State}

/-! ### The columns of a pair -/

/-- The main sequencer's next step of P6 in a run with nothing scheduled. -/
theorem run_refresh {r : PassPos} (n : Nat) (hs : s.seq = .p6 r) (hm : s.moves = []) (h : refreshStep r s = .next t) :
    Host.Core.run Sys2Proof.core (n + 1) s = Host.Core.run Sys2Proof.core n t := by
  have hstep : step s = .next t := by unfold step; rw [hm]; exact (mainStep_p6 hs).trans h
  exact run_succ_next hstep

/-- R205 to R207: the state after columns are shown by the events `es`: the clock and the bus are low again. -/
def shown (es : List Event) (s : State) : State := { s with
  clk := false, busUpper := .black, busLower := .black, trace := es.reverse ++ s.trace }

/-- R200: where the pass goes from the end of a column. -/
def nextColumn (s : State) : State :=
  if s.colmI + 1 < s.cfg.width then { s with colmI := s.colmI + 1, seq := .p6 .setBus }
  else { s with colmI := 0, seq := .p6 .latchOn }

/-- R200 step 2: the body of the current column, from its `BUS` to its `CLR`. -/
theorem run_column (n : Nat) (hs : s.seq = .p6 .setBus) (hm : s.moves = []) (hc : s.colmI < s.cfg.width)
    (hp : s.pairI < s.cfg.npairs) : Host.Core.run Sys2Proof.core (n + 3) s =
      Host.Core.run Sys2Proof.core n (nextColumn (shown (columnEvents s s.pairI s.colmI) s)) := by
  obtain ⟨hup, hlow⟩ := pair_inBounds hc hp
  rw [run_refresh (n + 2) hs hm (presentColumn_eq_next.mpr ⟨hup, hlow, rfl⟩),
    run_refresh (n + 1) (r := .pulse) rfl (by exact hm) rfl, run_refresh n (r := .clearBus) rfl (by exact hm) rfl]
  rfl

/-- R200 step 2: the state at the end of a pair's columns, from the body of one of them. -/
def allShown (s : State) : State := { shown (columnsFrom s s.pairI s.colmI) s with colmI := 0, seq := .p6 .latchOn }

/-- R200 step 2: the last `n + 1` columns of a pair. -/
theorem run_columns (n : Nat) (hs : s.seq = .p6 .setBus) (hm : s.moves = []) (hn : s.colmI + (n + 1) = s.cfg.width)
    (hp : s.pairI < s.cfg.npairs) : Host.Core.run Sys2Proof.core (3 * (n + 1)) s = .next (allShown s) := by
  unfold allShown
  induction n generalizing s with
  | zero =>
    have hlast : ¬ s.colmI + 1 < s.cfg.width := by omega
    rw [columnsFrom_of_lt (by omega), columnsFrom_of_le (by omega), List.append_nil]
    exact (run_column 0 hs hm (by omega) hp).trans (congrArg _ (if_neg hlast))
  | succ n ih =>
    have hmore : s.colmI + 1 < s.cfg.width := by omega
    have hnext : nextColumn (shown (columnEvents s s.pairI s.colmI) s) =
        { shown (columnEvents s s.pairI s.colmI) s with colmI := s.colmI + 1, seq := .p6 .setBus } := if_pos hmore
    rw [Nat.mul_succ, run_column _ hs hm (by omega) hp, hnext, ih rfl (by exact hm) (by simp only [shown]; omega) (by exact hp),
      columnsFrom_of_lt (c := s.colmI) (by omega)]
    simp only [shown, List.reverse_append, List.append_assoc]
    rfl

/-! ### The pairs of a pass -/

/-- R211: the state after whole pairs are lit by the events `es`, the last of them by the address `addr`. -/
def lit (es : List Event) (addr : Nat) (s : State) : State := { s with
  oe := s.cfg.oeAfterLatch, lat := true, clk := false, busUpper := .black, busLower := .black, rowAddr := addr
  trace := es.reverse ++ s.trace }

/-- R200: where the pass goes from the end of a pair. -/
def nextPair (s : State) : State :=
  if s.pairI + 1 < s.cfg.npairs then { s with pairI := s.pairI + 1, seq := .p6 .outputOff }
  else { s with pairI := 0, seq := .p1 .test }

/-- R200 step 1. -/
def opened (s : State) : State := { s with
  oe := false, lat := false, seq := .p6 .setBus, trace := .latch false :: .outputEnable false :: s.trace }

/-- R200 step 3, but for where the pass goes from there. -/
def closed (s : State) : State := { s with
  oe := s.cfg.oeAfterLatch, lat := true, rowAddr := addrAfter s.cfg s.pairI, trace := (pairClose s s.pairI).reverse ++ s.trace }

theorem run_open (n : Nat) (hs : s.seq = .p6 .outputOff) (hm : s.moves = []) :
    Host.Core.run Sys2Proof.core (n + 2) s = Host.Core.run Sys2Proof.core n (opened s) := by
  rw [run_refresh (n + 1) hs hm rfl, run_refresh n (r := .latchOff) rfl (by exact hm) rfl]
  rfl

theorem run_close (n : Nat) (hs : s.seq = .p6 .latchOn) (hm : s.moves = []) :
    Host.Core.run Sys2Proof.core (n + 3) s = Host.Core.run Sys2Proof.core n (nextPair (closed s)) := by
  rw [run_refresh (n + 2) hs hm rfl, run_refresh (n + 1) (r := .outputAfter) rfl (by exact hm) rfl,
    run_refresh n (r := .address) rfl (by exact hm) rfl]
  rfl

theorem nextPair_moveTo (p : SeqPos) (s : State) : nextPair { s with seq := p } = nextPair s := rfl

/-- R200, R211: the three steps of a pair together. -/
theorem closed_allShown_opened (hc : s.colmI = 0) : closed (allShown (opened s)) =
    { lit (pairEvents s s.pairI) (addrAfter s.cfg s.pairI) s with seq := .p6 .latchOn } := by
  rw [allShown, pairEvents_eq, ← hc]
  simp only [lit, List.reverse_cons, List.reverse_append, List.append_assoc]
  rfl

/-- R200 steps 1 to 3 for the current pair. -/
theorem run_pair (n : Nat) (hs : s.seq = .p6 .outputOff) (hc : s.colmI = 0) (hm : s.moves = []) (hp : s.pairI < s.cfg.npairs) :
    Host.Core.run Sys2Proof.core (n + (3 * s.cfg.width + 5)) s =
      Host.Core.run Sys2Proof.core n (nextPair (lit (pairEvents s s.pairI) (addrAfter s.cfg s.pairI) s)) := by
  obtain ⟨w, hw⟩ : ∃ w, s.cfg.width = w + 1 := Nat.exists_eq_add_one.mpr s.cfg.width_pos
  have hfirst : (opened s).colmI + (w + 1) = (opened s).cfg.width := by simp only [opened]; omega
  have hcolumns := run_columns (s := opened s) w rfl hm hfirst hp
  have hsplit : n + (3 * s.cfg.width + 5) = 3 * (w + 1) + (n + 3) + 2 := by omega
  rw [hsplit, run_open _ hs hm, run_add hcolumns, run_close n (s := allShown (opened s)) rfl hm, closed_allShown_opened hc,
    nextPair_moveTo]

/-- R200: the last `n + 1` pairs of a pass. -/
theorem run_pairs (n : Nat) (hs : s.seq = .p6 .outputOff) (hc : s.colmI = 0) (hm : s.moves = [])
    (hn : s.pairI + (n + 1) = s.cfg.npairs) : Host.Core.run Sys2Proof.core ((n + 1) * (3 * s.cfg.width + 5)) s =
      .next { lit (pairsFrom s s.pairI) (addrAfter s.cfg (s.cfg.npairs - 1)) s with pairI := 0, seq := .p1 .test } := by
  induction n generalizing s with
  | zero =>
    have hlast : ¬ s.pairI + 1 < s.cfg.npairs := by omega
    have hpair : s.cfg.npairs - 1 = s.pairI := by omega
    rw [pairsFrom_of_lt (by omega), pairsFrom_of_le (by omega), List.append_nil, hpair, Nat.succ_mul, Nat.zero_mul]
    exact (run_pair 0 hs hc hm (by omega)).trans (congrArg _ (if_neg hlast))
  | succ n ih =>
    have hmore : s.pairI + 1 < s.cfg.npairs := by omega
    have hnext : nextPair (lit (pairEvents s s.pairI) (addrAfter s.cfg s.pairI) s) =
        { lit (pairEvents s s.pairI) (addrAfter s.cfg s.pairI) s with pairI := s.pairI + 1, seq := .p6 .outputOff } :=
      if_pos hmore
    have hrest := ih (s := { lit (pairEvents s s.pairI) (addrAfter s.cfg s.pairI) s with
      pairI := s.pairI + 1, seq := .p6 .outputOff }) rfl hc hm (by simp only [lit]; omega)
    rw [Nat.succ_mul, run_pair _ hs hc hm (by omega), hnext]
    refine hrest.trans ?_
    rw [pairsFrom_of_lt (p := s.pairI) (by omega)]
    simp only [lit, List.reverse_append, List.append_assoc]
    rfl

/-- Settles O46: the pairs of the whole pass. -/
theorem refreshPass : Obligations.RefreshPass := by
  intro s hs hp hc hm
  obtain ⟨n, hn⟩ : ∃ n, s.cfg.npairs = n + 1 := Nat.exists_eq_add_one.mpr s.cfg.npairs_pos
  have hrun := run_pairs n hs hc hm (by omega)
  have hevents : pairsFrom s s.pairI = refreshEvents s := by simp [pairsFrom, refreshEvents, List.range_eq_range', hp]
  rw [← hn, hevents] at hrun
  rw [hrun, lit, ← hp]

/-! ### What the events of a pass contain -/

/-- A list made of `n` parts with `m` events of a kind each has `n * m` of them. -/
theorem countP_flatMap_range {f : Nat → List Event} {q : Event → Bool} {m : Nat} (h : ∀ k, (f k).countP q = m) (n : Nat) :
    ((List.range n).flatMap f).countP q = n * m := by
  simp [List.countP_flatMap, Function.comp_def, h]

/-- R201: when every column has `m` events of a kind and a pair besides its columns `b`, a pass has `NPAIRS * (b + W*m)`. -/
theorem countP_refreshEvents {q : Event → Bool} {m b : Nat} (hcolumn : ∀ p c, (columnEvents s p c).countP q = m)
    (hpair : ∀ p, ([.outputEnable false, .latch false] : List Event).countP q + (pairClose s p).countP q = b) :
    (refreshEvents s).countP q = s.cfg.npairs * (b + s.cfg.width * m) := by
  refine countP_flatMap_range (fun p => ?_) _
  rw [pairEvents, List.countP_append, List.countP_append, countP_flatMap_range (hcolumn p), ← hpair p, pairClose]
  omega

/-- R202: the colours the columns of one pair carry. -/
theorem busColors_pairEvents (s : State) (p : Nat) : busColors (pairEvents s p) =
    (List.range s.cfg.width).map fun c => (cellAt s c p, cellAt s c (p + s.cfg.npairs)) := by
  simp only [busColors, pairEvents, columnEvents, List.filterMap_append, List.filterMap_flatMap]
  simp [List.map_eq_flatMap]

/-- Row after row of a table of `n` rows and `w` columns, by one index. -/
theorem flatMap_range_map_range {α : Type} (f : Nat → Nat → α) (n w : Nat) :
    ((List.range n).flatMap fun p => (List.range w).map (f p)) = (List.range (n * w)).map fun k => f (k / w) (k % w) := by
  induction n with
  | zero => simp
  | succ n ih =>
    rw [List.range_succ, List.flatMap_append, ih, Nat.succ_mul, List.range_add, List.map_append, List.flatMap_singleton,
      List.map_map]
    congr 1
    refine List.map_congr_left fun c hc => ?_
    have hlt : c < w := List.mem_range.mp hc
    simp [Nat.mul_comm n, Nat.mul_add_div (Nat.zero_lt_of_lt hlt), Nat.div_eq_of_lt hlt, Nat.mod_eq_of_lt hlt]

/-- R202: the colours of a pass, `BUS` by `BUS`. -/
theorem busColors_refreshEvents (s : State) : busColors (refreshEvents s) =
    (List.range (s.cfg.npairs * s.cfg.width)).map fun k =>
      (cellAt s (k % s.cfg.width) (k / s.cfg.width), cellAt s (k % s.cfg.width) (k / s.cfg.width + s.cfg.npairs)) := by
  have hpairs : busColors (refreshEvents s) = (List.range s.cfg.npairs).flatMap fun p => busColors (pairEvents s p) :=
    List.filterMap_flatMap ..
  rw [hpairs]
  simp only [busColors_pairEvents]
  exact flatMap_range_map_range (fun p c => (cellAt s c p, cellAt s c (p + s.cfg.npairs))) _ _

/-- Settles O47: O46 gives the events, and the events their counts and colours. -/
theorem refreshCountsAndColors : Obligations.RefreshCountsAndColors := by
  intro s hs hp hc hm
  refine ⟨_, refreshEvents s, refreshPass s hs hp hc hm, rfl, rfl, refreshEvents_length s, ?_, ?_, ?_, ?_, ?_, ?_, ?_⟩
  · rw [countP_refreshEvents (m := 0) (b := 2) (fun _ _ => rfl) (fun _ => rfl)]; omega
  · rw [countP_refreshEvents (m := 0) (b := 2) (fun _ _ => rfl) (fun _ => rfl)]; omega
  · rw [countP_refreshEvents (m := 0) (b := 1) (fun _ _ => rfl) (fun _ => rfl)]; omega
  · rw [List.count, countP_refreshEvents (m := 1) (b := 0) (fun _ _ => rfl) (fun _ => rfl)]; simp
  · rw [List.count, countP_refreshEvents (m := 1) (b := 0) (fun _ _ => rfl) (fun _ => rfl)]; simp
  · simp [busColors_refreshEvents]
  · intro k hk
    simp [busColors_refreshEvents, hk]

/-- Settles O48: O46 at this geometry, and R200's events of these four cells. -/
theorem workedRefreshTrace : Obligations.WorkedRefreshTrace := by
  intro cfg hw hn hoe haddr s hs
  have hcfg : s.cfg = cfg := by rw [hs]; rfl
  have hrun := refreshPass s (by rw [hs]) (by rw [hs]; rfl) (by rw [hs]; rfl) (by rw [hs]; rfl)
  rw [hcfg, hw, hn] at hrun
  refine ⟨_, hrun, rfl, ?_⟩
  have htrace : s.trace = [] := by rw [hs]; rfl
  have hfb : s.fb =
      [(0, ⟨true, false, false⟩), (3, ⟨false, true, false⟩), (4, ⟨false, false, true⟩), (7, ⟨true, true, true⟩)] := by
    rw [hs]
  simp [htrace, refreshEvents, pairEvents, columnEvents, cellAt, cellNumber, addrAfter, hcfg, hw, hn, hoe, haddr, hfb,
    Memory.read, List.range_succ, Config.unlisted, Color.black]

end Sys2Proof.Proofs
end

section
/-! PROOFS. Nothing stops the machine (60_exceptions.md R220): every instruction has a successor, and so has every state that
satisfies the invariant. What the interrupts do, and that two of them commute (R227, R230, R232). -/

namespace Sys2Proof.Proofs

open Sys2Proof.Machine Sys2Proof.Laws

variable {s : State}

/-! ### Every instruction completes -/

/-- R110, R130: a state that differs from `s` at most in what some instruction writes. -/
abbrev inInstrFrame (s t : State) : Prop := t = { s with
  mode := t.mode, sel := t.sel, drawColor := t.drawColor, btnFlag := t.btnFlag, accLine := t.accLine,
  accRect := t.accRect, accTri := t.accTri, timerDiv := t.timerDiv, fb := t.fb }

/-- R220: the instruction has a successor, in its frame. -/
abbrev completes (i : Instr) (s : State) : Prop := ∃ t, exec i s = .next t ∧ inInstrFrame s t

/-- R110: by the key. -/
theorem pressKey_inInstrFrame (v : BitVec 4) (s : State) : inInstrFrame s (pressKey v s) := by
  unfold pressKey
  split_ifs with hA h0 hB h9 hs
  · rfl
  · rfl
  · rfl
  · rfl
  · rw [select_eq]
  · rfl

theorem decode_k5_completes (w : KeyWord) (s : State) : completes (decode (.k5 w)) s := by
  rw [← makeKeyWord_fields w]
  cases w.pressed with
  | false => rw [decode_notPressed]; exact ⟨s, rfl, rfl⟩
  | true => rw [decode_pressed]; exact ⟨_, exec_decodePressed _ s, pressKey_inInstrFrame _ s⟩

/-- R130: by the mode. -/
theorem decode_m6_completes (w : ModeWord) (s : State) : completes (decode (.m6 w)) s := by
  obtain ⟨m, n, rfl⟩ := exists_makeModeWord w
  rw [decode_makeModeWord]
  cases m with
  | color => exact ⟨_, exec_decodeColorSel n s, by split_ifs <;> rfl⟩
  | fill => exact ⟨_, exec_decodeFillSel n s, by split_ifs <;> rfl⟩
  | draw => exact ⟨_, exec_decodeDrawSel n s, by rw [drawTool_frame]; rfl⟩
  | speed => exact ⟨_, exec_decodeSpeedSel n s, by split_ifs <;> rfl⟩

theorem decode_completes (w : CodeWord) (s : State) : completes (decode w) s := by
  cases w with
  | k5 w => exact decode_k5_completes w s
  | m6 w => exact decode_m6_completes w s

/-- Settles O6: a well-formed instruction is the decoding of its code; a reserved key word has no effect whatever its nibble. -/
theorem everyInstructionCompletes : Obligations.EveryInstructionCompletes := by
  intro i s
  by_cases hi : i.wf = true
  · exact decodeOfEncode i hi ▸ decode_completes (encode i) s
  · cases i with
    | k5Reserved v => exact ⟨s, rfl, rfl⟩
    | _ => exact absurd rfl hi

/-! ### Every state of a run has a successor -/

/-- Settles O59, by who steps: another agent's step always completes, the main sequencer's under the invariant. -/
theorem theMachineNeverStops : Obligations.TheMachineNeverStops := by
  intro s hi
  rcases step_turn s with hm | ⟨e, rest, hmv⟩
  · rw [step_main hm]
    exact mainStep_of_inv { hi with }
  · exact ⟨_, step_env hmv⟩

/-! ### What each interrupt does -/

/-- R92: the whole effect of a completion, each cell with the condition under which it changes. -/
theorem completeConversion_eq (a : Axis) (s : State) : completeConversion a s = { s with
    sample := s.sample.set a (if s.conv.get a = .busy then s.adcIn.get a else s.sample.get a)
    fresh := s.fresh.set a (if s.conv.get a = .busy then true else s.fresh.get a)
    conv := s.conv.set a .idle } := by
  rcases completeConversion_cases a s with ⟨hbusy, e⟩ | ⟨hn, e⟩ <;> rw [e]
  · simp only [hbusy, if_true]
  · have hidle : s.conv.get a = .idle := by cases h : s.conv.get a <;> simp_all
    have hconv : s.conv.set a .idle = s.conv := by rw [← hidle, set_get_self]
    simp only [hn, if_false, set_get_self, hconv]

/-- R232: the whole effect of a base tick, each cell with the condition under which it changes. -/
theorem timerFire_eq (s : State) : timerFire s = { s with
    movementDue := s.movementDue || decide (s.timerCnt + 1 ≥ s.timerDiv)
    timerCnt := if s.timerCnt + 1 ≥ s.timerDiv then 0 else s.timerCnt + 1 } := by
  rcases timerFire_cases s with ⟨hle, e⟩ | ⟨hlt, e⟩ <;> rw [e]
  · simp [hle]
  · simp [Nat.not_le.mpr hlt]

/-- Settles O40. -/
theorem timerStep : Obligations.TimerStep := by
  intro s rest h
  rw [step_env h, envStep, timerFire_eq]

/-! ### Two interrupts at one boundary -/

/-- R224: the three interrupts among the moves of the outside. -/
abbrev isInterrupt (e : EnvMove) : Prop := (∃ a, e = .complete a) ∨ e = .baseTick

theorem isInterrupt_of_mem {e : EnvMove} (h : e ∈ [EnvMove.complete .x, .complete .y, .baseTick]) : isInterrupt e := by
  simp only [List.mem_cons, List.not_mem_nil, or_false] at h
  rcases h with rfl | rfl | rfl
  · exact .inl ⟨.x, rfl⟩
  · exact .inl ⟨.y, rfl⟩
  · exact .inr rfl

/-- R227: the cells of one axis are not those of the other. -/
theorem completeConversion_comm (a b : Axis) (s : State) :
    completeConversion a (completeConversion b s) = completeConversion b (completeConversion a s) := by
  simp only [completeConversion_eq]
  cases a <;> cases b <;> rfl

/-- R227: the timer's cells are no axis's. -/
theorem completeConversion_timerFire (a : Axis) (s : State) :
    completeConversion a (timerFire s) = timerFire (completeConversion a s) := by
  simp only [completeConversion_eq, timerFire_eq]

theorem envStep_comm {e f : EnvMove} (he : isInterrupt e) (hf : isInterrupt f) (s : State) :
    envStep e (envStep f s) = envStep f (envStep e s) := by
  rcases he with ⟨a, rfl⟩ | rfl <;> rcases hf with ⟨b, rfl⟩ | rfl
  · exact completeConversion_comm a b s
  · exact completeConversion_timerFire a s
  · exact (completeConversion_timerFire b s).symm
  · rfl

/-- R230: the schedule is no agent's to read or write. -/
theorem envStep_withMoves (e : EnvMove) (ms : List Move) (s : State) :
    envStep e { s with moves := ms } = { envStep e s with moves := ms } := by
  cases e with
  | complete a => simp only [envStep, completeConversion_eq]
  | baseTick => simp only [envStep, timerFire_eq]
  | setAdc a raw => rfl
  | setButton b => rfl
  | setKeys ks => rfl

/-- R50: two scheduled moves of the outside, one after the other. -/
theorem run_two_env (e f : EnvMove) (rest : List Move) (s : State) :
    Host.Core.run Sys2Proof.core 2 { s with moves := .env e :: .env f :: rest } =
      .next (envStep f (envStep e { s with moves := rest })) := by
  have hfirst : step { s with moves := .env e :: .env f :: rest } =
      .next { envStep e { s with moves := rest } with moves := .env f :: rest } := by
    rw [step_env rfl, ← envStep_withMoves]
  have hsecond : step { envStep e { s with moves := rest } with moves := .env f :: rest } =
      .next (envStep f (envStep e { s with moves := rest })) := by
    rw [step_env rfl, envStep_withMoves e rest s]
  rw [run_succ_next hfirst, run_succ_next hsecond]
  rfl

/-- Settles O41: the two agents' steps commute. -/
theorem interruptsCommute : Obligations.InterruptsCommute := by
  intro s rest e f he hf
  rw [run_two_env, run_two_env, envStep_comm (isInterrupt_of_mem hf) (isInterrupt_of_mem he)]

end Sys2Proof.Proofs
end

section
/-! PROOFS. The reset state satisfies everything the rules rely on (70_reset_and_hazards.md R253). -/

namespace Sys2Proof.Proofs

open Sys2Proof.Machine Sys2Proof.Laws

/-- D9: a neutral value is one a converter can deliver. -/
theorem neutral_lt {n threshold bits : Nat} (h : n + threshold < 2 ^ bits) : n < 2 ^ bits := by omega

/-- R19, R25, R34: the raw values after reset are in range, the unspecified ones because the port narrows them. -/
theorem samplesOk_resetWith (cfg : Config) : SamplesOk (State.resetWith cfg) := by
  have hport (n : Nat) : n % 2 ^ cfg.sampleBits < 2 ^ cfg.sampleBits := Nat.mod_lt _ (Nat.two_pow_pos _)
  intro a
  cases a with
  | x => exact ⟨neutral_lt cfg.neutralX_high, hport _, neutral_lt cfg.neutralX_high⟩
  | y => exact ⟨neutral_lt cfg.neutralY_high, hport _, neutral_lt cfg.neutralY_high⟩

/-- R11, D2: the origin is in bounds in every geometry. -/
theorem origin_inBounds (cfg : Config) : inBounds cfg 0 0 :=
  inBounds_natCast (x := 0) (y := 0) cfg.width_pos (Nat.mul_pos Nat.two_pos cfg.npairs_pos)

/-- R253: the machine is at rest after reset. -/
theorem inv_resetWith (cfg : Config) : Inv (State.resetWith cfg) where
  cursor := ⟨origin_inBounds cfg, origin_inBounds cfg⟩
  selection := .inr (show 1 ≤ (2#4).toNat ∧ (2#4).toNat ≤ 8 by decide)
  accumulators := ⟨⟨.inl rfl, rfl⟩, ⟨.inl rfl, rfl⟩, .inl rfl, .inl rfl, rfl, fun _ => rfl⟩
  samples := samplesOk_resetWith cfg
  timer := ⟨cfg.divReset_range.1, cfg.divReset_range.2, Nat.zero_le 7⟩
  blink := cfg.blink_pos
  buffer := wf_resetWith cfg
  key := .inl rfl
  indices := by simp [State.resetWith, IndicesOk]
  mailbox := (mailboxOk_atRest rfl).mpr fun a => by cases a <;> exact ⟨nofun, nofun⟩
  columns := (columnsOk_atRest rfl).mpr fun c => by fin_cases c <;> rfl
  bus := (busOk_atRest rfl).mpr ⟨rfl, cfg.npairs_pos, rfl, rfl⟩

/-- R213: no event has been emitted yet. -/
theorem traceOk_resetWith (cfg : Config) : TraceOk (State.resetWith cfg) where
  discipline := rfl
  pulseNext := nofun
  clearNext := ⟨nofun, nofun⟩

/-- Settles O56. -/
theorem resetSatisfiesTheInvariant : Obligations.ResetSatisfiesTheInvariant := fun cfg =>
  ⟨inv_resetWith cfg, traceOk_resetWith cfg⟩

end Sys2Proof.Proofs
end
